-- ==== Sys2Proof/Word.lean ====
section
/-! DEFINITION. The one word type of the machine: a byte (spec 00_scope.md R9, `GW` of R7). -/

namespace Sys2Proof

/-- A byte: 8 bits, unsigned, bit 0 least significant (R9). A GPIO group, a data word and every element of a
stream is one byte (R7 `GW`, R37). Counts, lengths, divisors and frequencies are naturals, never words (R9). -/
abbrev Byte := BitVec 8

end Sys2Proof
end

