-- ==== Sys2Proof/Config.lean ====
section
/-! DEFINITION. What a model instance fixes: the parameters of spec 00_scope.md R7 with the constraints of R8, the
configuration table `OPC` (30_encoding.md, 93_implementation_defined.md G1 to G14, G20), and the answers of the
outside world that nothing determines (R11), as constants without a body. -/

namespace Sys2Proof

/-- Bridge personality, parameter `CHIP` (R2, R7). -/
inductive Chip where
  | cmd
  | bb
  deriving DecidableEq, Repr, Inhabited

/-- The parameters of R7 that differ between model instances. They are plain data held beside the state, so that a
statement about every state is a statement about every instance. `T_IO` and `T_PROTO` are not modelled (R7). -/
structure Params where
  /-- `CHIP` -/
  chip : Chip
  /-- `F_BASE_HI`, in Hz -/
  fBaseHi : Nat
  /-- `F_MIN`, in Hz -/
  fMin : Nat
  /-- `F_MAX_BB`, in Hz (OPEN in R7) -/
  fMaxBb : Nat
  /-- `P_CHUNK`, in bytes (OPEN in R7) -/
  pChunk : Nat
  /-- `XFER_MAX`, in bytes (OPEN in R7) -/
  xferMax : Nat
  /-- `RA_CHUNK`, in bytes (OPEN in R7) -/
  raChunk : Nat
  /-- `K` -/
  k : Nat
  /-- `I2C_RATE_DEFAULT`, in Hz -/
  i2cRate : Nat
  /-- `SYNC_LAG` -/
  syncLag : Nat
  /-- `BB_RX_CAP`, in samples; `none` is unbounded (R7, R163) -/
  bbRxCap : Option Nat
  deriving DecidableEq, Repr, Inhabited

/-- `BASE_DIV` (R7). -/
abbrev baseDiv : Nat := 5
/-- `DIV_MAX` (R7). -/
abbrev divMax : Nat := 65536
/-- `LEN_MAX` (R7). -/
abbrev lenMax : Nat := 65536
/-- `BB_PRE` (R7). -/
abbrev bbPre : Nat := 2
/-- `BB_POST` (R7). -/
abbrev bbPost : Nat := 2
/-- The one supported word width (R7). -/
abbrev wordBits : Nat := 8

/-- `F_MAX_CMD = F_BASE_HI` (R7). -/
def Params.fMaxCmd (p : Params) : Nat := p.fBaseHi

/-- `N_GROUPS` (R7). -/
def Params.nGroups (p : Params) : Nat :=
  match p.chip with
  | .cmd => 2
  | .bb => 1

/-- The constraints of R8. A parameter set that breaks one is refused by `step` (R8, U23). -/
def Params.ok (p : Params) : Bool :=
  decide (1 ≤ p.pChunk) && decide (p.pChunk ≤ lenMax) && decide (1 ≤ p.xferMax) && decide (1 ≤ p.raChunk)
    && decide (1 ≤ p.k) && decide (1 ≤ p.fBaseHi) && decide (p.fBaseHi % baseDiv = 0) && decide (1 ≤ p.fMin)
    && decide (p.syncLag ≤ 1)

/-- The instance `State.reset` stands for: the defaults of R7. Where R7 leaves a parameter OPEN the value here is a
DESIGN CHOICE (assumption 2): `CHIP` = CMD, `F_MAX_BB` = 1 MHz, `P_CHUNK` = 512, `XFER_MAX` = 65536, `RA_CHUNK` = 512. -/
def Params.default : Params :=
  { chip := .cmd, fBaseHi := 30000000, fMin := 100, fMaxBb := 1000000, pChunk := 512, xferMax := 65536,
    raChunk := 512, k := 4, i2cRate := 100000, syncLag := 1, bbRxCap := none }

/-- The configuration table `OPC`: opcode values, data-shift opcode bits (30_encoding.md R58 to R68, D3) and
mode codes (R74). -/
structure OpcTable where
  /-- `IN`, bit 5 (R58) -/
  dsIn : Byte
  /-- `OUT`, bit 4 (R58) -/
  dsOut : Byte
  /-- `L`, bit 3 (R58) -/
  dsLsb : Byte
  /-- `I`, bit 2 (R58) -/
  dsInFall : Byte
  /-- `B`, bit 1 (R58) -/
  dsBits : Byte
  /-- `O`, bit 0 (R58) -/
  dsOutFall : Byte
  setBitsLow : Byte
  readBitsLow : Byte
  setBitsHigh : Byte
  readBitsHigh : Byte
  setDivisor : Byte
  sendImmediate : Byte
  div5Off : Byte
  div5On : Byte
  clk3On : Byte
  clk3Off : Byte
  driveZeroOnly : Byte
  probe1 : Byte
  probe2 : Byte
  badCmd : Byte
  /-- the mode codes of `SET_BITMODE` (R74) -/
  modeReset : Byte
  modeCmdStream : Byte
  modeSyncBb : Byte
  deriving DecidableEq, Repr

/-- The default table (R58, R62 to R68, R74; 93_implementation_defined.md G1 to G9, G14). -/
abbrev OPC : OpcTable :=
  { dsIn := 0x20, dsOut := 0x10, dsLsb := 0x08, dsInFall := 0x04, dsBits := 0x02, dsOutFall := 0x01,
    setBitsLow := 0x80, readBitsLow := 0x81, setBitsHigh := 0x82, readBitsHigh := 0x83, setDivisor := 0x86,
    sendImmediate := 0x87, div5Off := 0x8A, div5On := 0x8B, clk3On := 0x8C, clk3Off := 0x8D,
    driveZeroOnly := 0x9E, probe1 := 0xAA, probe2 := 0xAB, badCmd := 0xFA,
    modeReset := 0x00, modeCmdStream := 0x02, modeSyncBb := 0x04 }

/-- `SCK` and `SCL`, pin D0 (R72, R23). -/
abbrev pinSck : Byte := 0x01
/-- `MOSI` and `SDA_OUT`, pin D1 (R72, R23). -/
abbrev pinMosi : Byte := 0x02
/-- `MISO` and `SDA_IN`, pin D2 (R72, R23). -/
abbrev pinMiso : Byte := 0x04
/-- `CS`, pin D3, active low (R72, R23). -/
abbrev pinCs : Byte := 0x08

/-- Mode word bit of CPHA (R51). -/
abbrev modeCpha : Nat := 0
/-- Mode word bit of CPOL (R51). -/
abbrev modeCpol : Nat := 1
/-- Mode word bit of HALF_DUPLEX (R51). -/
abbrev modeHalf : Nat := 2
/-- Mode word bit of NO_CS (R51). -/
abbrev modeNoCs : Nat := 3
/-- Mode word bit of LSB_FIRST (R51). -/
abbrev modeLsb : Nat := 4
/-- The three flag bits of the mode word together (R51). -/
abbrev modeFlags : Nat := 0x1C

/-- One turn of a read loop: what `cancelled(ctx)`, `usbQueueStatus()` and `usbRead(m)` answer in it
(40_transport.md R79, R82). `none` is `fail`. An answer that the loop does not ask for is not looked at. -/
structure Turn where
  cancel : Bool
  status : Option Nat
  data : Option (List Byte)
  deriving DecidableEq, Repr, Inhabited

/-- The draws of one logical read (R11, R82): the turns the loop meets first, then the response bytes that arrive
before the context is cancelled. Fewer bytes than asked for is the cancelled read (`E_TRUNCATED`). -/
structure RdScript where
  turns : List Turn
  tail : List Byte
  deriving DecidableEq, Repr, Inhabited

/-! The draws of R11, one constant per kind of logical event, taken at a counter that `State` holds. They have no
body, so no proof can rest on a value of one. Every script is finite, which is the fairness of R170. -/

/-- What `usbWrite` answers during a logical write: `(k, true)` is `(k, ok)` and `(k, false)` is `(k, fail)` (R79,
R80). After the script every further transfer is accepted in full. -/
opaque Config.freeWr : Nat → List (Nat × Bool)

/-- The draws of a logical read. -/
opaque Config.freeRd : Nat → RdScript

/-- The draws of a drain (R83). After the script the queue status is zero. -/
opaque Config.freeFlush : Nat → List Turn

/-- What `usbControl` answers (R79): `true` is `ok`. -/
opaque Config.freeCtrl : Nat → Bool

end Sys2Proof
end

