-- ==== Sys2Proof/Syntax.lean ====
section
/-! DEFINITION. The instructions: one constructor for every row of spec/opcode_table.json. The rows are of five
kinds: commands of the bridge's command stream (30_encoding.md section 2), the BB sample (section 5), control requests
(section 4), host requests (section 1, R49), and composite sequences (section 6, R78). -/

namespace Sys2Proof

/-- An 8-pin GPIO group (R17). -/
inductive GroupId where
  | d
  | c
  deriving DecidableEq, Repr

/-- The pull mode operand of `I2C_OPEN` (R56). -/
inductive Pull where
  | float
  | pullup
  deriving DecidableEq, Repr

/-- The mode operand of `SET_BITMODE` (R74). -/
inductive BitMode where
  | reset
  | cmdStream
  | syncBb
  deriving DecidableEq, Repr

/-- The six selector bits of a data-shift opcode (R58). -/
structure ShiftSel where
  /-- `IN`: sample data in -/
  inn : Bool
  /-- `OUT`: shift data out -/
  out : Bool
  /-- `L`: least significant bit first -/
  lsb : Bool
  /-- `I`: input sampled on the falling edge -/
  inFall : Bool
  /-- `B`: bit mode -/
  bits : Bool
  /-- `O`: output changes on the falling edge -/
  outFall : Bool
  deriving DecidableEq, Repr

/-- A packet (R52). A buffer of length 0 is absent. `r` holds the read buffer's initial contents. -/
structure Packet where
  w : List Byte
  r : List Byte
  keepCs : Bool
  bits : Nat
  deriving DecidableEq, Repr

/-- The instructions, in the order of spec/opcode_table.json. A data-shift row's `payload` is the bytes shifted out,
and its length is the row's `n` where the row shifts out; `n` (bytes) and `nb` (bits) count what is shifted otherwise
(R60, R61). -/
inductive Instr where
  /-- DATA_SHIFT: any opcode of the family of R58, with its count and payload -/
  | dataShift (sel : ShiftSel) (n : Nat) (payload : List Byte)
  /-- SHIFT_BYTES_OUT 0x10: MSB first, out on the rising edge -/
  | shiftBytesOut10 (payload : List Byte)
  /-- SHIFT_BYTES_OUT 0x11: MSB first, out on the falling edge -/
  | shiftBytesOut11 (payload : List Byte)
  /-- SHIFT_BYTES_OUT 0x18: LSB first, out on the rising edge -/
  | shiftBytesOut18 (payload : List Byte)
  /-- SHIFT_BYTES_OUT 0x19: LSB first, out on the falling edge -/
  | shiftBytesOut19 (payload : List Byte)
  /-- SHIFT_BYTES_IN 0x20: MSB first, in on the rising edge -/
  | shiftBytesIn (n : Nat)
  /-- SHIFT_BYTES_INOUT 0x31: MSB first, out falling, in rising -/
  | shiftBytesInout31 (payload : List Byte)
  /-- SHIFT_BYTES_INOUT 0x34: MSB first, out rising, in falling -/
  | shiftBytesInout34 (payload : List Byte)
  /-- SHIFT_BYTES_INOUT 0x39: LSB first, out falling, in rising -/
  | shiftBytesInout39 (payload : List Byte)
  /-- SHIFT_BYTES_INOUT 0x3C: LSB first, out rising, in falling -/
  | shiftBytesInout3C (payload : List Byte)
  /-- SHIFT_BITS_IN 0x22: `nb` bits, MSB first, in on the rising edge -/
  | shiftBitsIn (nb : Nat)
  /-- SHIFT_BITS_OUT 0x13: the `nb` most significant bits of `b`, out on the falling edge -/
  | shiftBitsOut (nb : Nat) (b : Byte)
  /-- SET_BITS_LOW 0x80 (R62) -/
  | setBitsLow (val : Byte) (dir : Byte)
  /-- READ_BITS_LOW 0x81 (R63) -/
  | readBitsLow
  /-- SET_BITS_HIGH 0x82 (R62) -/
  | setBitsHigh (val : Byte) (dir : Byte)
  /-- READ_BITS_HIGH 0x83 (R63) -/
  | readBitsHigh
  /-- SET_DIVISOR 0x86 with the divisor `d`, 1 to 65536 (R64) -/
  | setDivisor (d : Nat)
  /-- SEND_IMMEDIATE 0x87 (R67) -/
  | sendImmediate
  /-- DIV5_OFF 0x8A (R64) -/
  | div5Off
  /-- DIV5_ON 0x8B (R64) -/
  | div5On
  /-- CLK_3PHASE_ON 0x8C (R65) -/
  | clk3PhaseOn
  /-- CLK_3PHASE_OFF 0x8D (R65) -/
  | clk3PhaseOff
  /-- DRIVE_ZERO_ONLY 0x9E (R66) -/
  | driveZeroOnly (maskD : Byte) (maskC : Byte)
  /-- PROBE1 0xAA (R68) -/
  | probe1
  /-- PROBE2 0xAB (R68) -/
  | probe2
  /-- RESERVED: any other byte in opcode position (R69) -/
  | reserved (op : Byte)
  /-- BAD_CMD 0xFA: the bridge's answer to an opcode it does not recognise (R68) -/
  | badCmd (op : Byte)
  /-- BB_SAMPLE: one byte written in SYNC_BB mode (R75) -/
  | bbSample (b : Byte)
  /-- RESET_DEVICE (R74) -/
  | resetDevice
  /-- INIT (R74) -/
  | init
  /-- SET_BITMODE (R74) -/
  | setBitmode (mask : Byte) (mode : BitMode)
  /-- SET_RATE, in samples per second (R74) -/
  | setRate (r : Nat)
  /-- DEV_OPEN (R94, R95) -/
  | devOpen
  /-- DEV_CLOSE (R136) -/
  | devClose
  /-- SPI_CONNECT (R100, R114) -/
  | spiConnect (f : Nat) (mode : Nat) (bits : Nat)
  /-- SPI_TX (R112) -/
  | spiTx (w : List Byte) (r : List Byte)
  /-- SPI_TXPACKETS (R103, R115) -/
  | spiTxPackets (pkts : List Packet)
  /-- SPI_CLOSE (R113) -/
  | spiClose
  /-- I2C_OPEN (R123) -/
  | i2cOpen (pull : Pull)
  /-- I2C_SET_SPEED (R124) -/
  | i2cSetSpeed (rate : Nat)
  /-- I2C_TX (R129) -/
  | i2cTx (addr : Nat) (w : List Byte) (r : List Byte)
  /-- I2C_CLOSE (R125) -/
  | i2cClose
  /-- GPIO_OUT (R139) -/
  | gpioOut (g : GroupId) (i : Fin 8) (level : Bool)
  /-- GPIO_IN (R140) -/
  | gpioIn (g : GroupId) (i : Fin 8)
  /-- GPIO_READ (R141) -/
  | gpioRead (g : GroupId) (i : Fin 8)
  /-- SPI_HEADER (R104) -/
  | spiHeader
  /-- SPI_TRAILER (R104) -/
  | spiTrailer
  /-- CHUNK_CMD(k) of a packet (R106) -/
  | chunkCmd (p : Packet) (k : Nat)
  /-- CLOCK_CMDS(sel, d): `low` selects `DIV5_ON` (R91) -/
  | clockCmds (low : Bool) (d : Nat)
  /-- PROBE(x) (R93) -/
  | probe (x : Byte)
  /-- I2C_START (R126) -/
  | i2cStart
  /-- I2C_STOP (R126) -/
  | i2cStop
  /-- I2C_IDLE (R126) -/
  | i2cIdle
  /-- I2C_WB(b) (R127) -/
  | i2cWb (b : Byte)
  /-- I2C_RB(last) (R128) -/
  | i2cRb (last : Bool)
  /-- BB_FRAME of a packet (R116) -/
  | bbFrame (p : Packet)
  deriving DecidableEq, Repr

end Sys2Proof
end

