-- ==== Sys2Proof/WellFormed.lean ====
section
/-! DEFINITION. Which instruction terms are well formed: the operand ranges the spec's encodings admit. A host request
is well formed whatever its operands are, because the spec gives each out-of-range operand an error code instead. -/

namespace Sys2Proof

/-- R58, R60, R61: a data shift has `IN` or `OUT`; in byte mode it counts 1 to `LEN_MAX` bytes and carries them all
if `OUT`; in bit mode it counts 1 to 8 bits and carries one byte if `OUT`; without `OUT` it carries nothing. -/
def ShiftSel.wf (sel : ShiftSel) (n : Nat) (payload : List Byte) : Bool :=
  (sel.inn || sel.out)
    && (if sel.bits then decide (1 ≤ n) && decide (n ≤ 8) else decide (1 ≤ n) && decide (n ≤ lenMax))
    && decide (payload.length = if sel.out then (if sel.bits then 1 else n) else 0)

/-- The opcodes outside the data-shift family that R69 lists. -/
def plainOpcodes : List Byte :=
  [OPC.setBitsLow, OPC.readBitsLow, OPC.setBitsHigh, OPC.readBitsHigh, OPC.setDivisor, OPC.sendImmediate,
    OPC.div5Off, OPC.div5On, OPC.clk3On, OPC.clk3Off, OPC.driveZeroOnly, OPC.probe1, OPC.probe2]

/-- A data-shift opcode: bits 7 and 6 are 0 and `IN` or `OUT` is set (R58, R70). -/
def isDataShift (op : Byte) : Bool :=
  decide (op &&& 0xC0 = 0) && decide (op &&& (OPC.dsIn ||| OPC.dsOut) ≠ 0)

/-- Operands inside the ranges the spec's encodings admit. -/
def Instr.wf : Instr → Bool
  | .dataShift sel n payload => sel.wf n payload
  | .shiftBytesOut10 p | .shiftBytesOut11 p | .shiftBytesOut18 p | .shiftBytesOut19 p
  | .shiftBytesInout31 p | .shiftBytesInout34 p | .shiftBytesInout39 p | .shiftBytesInout3C p =>
    decide (1 ≤ p.length) && decide (p.length ≤ lenMax)
  | .shiftBytesIn n => decide (1 ≤ n) && decide (n ≤ lenMax)
  | .shiftBitsIn nb => decide (1 ≤ nb) && decide (nb ≤ 8)
  | .shiftBitsOut nb _ => decide (1 ≤ nb) && decide (nb ≤ 8)
  | .setDivisor d => decide (1 ≤ d) && decide (d ≤ divMax)
  | .clockCmds _ d => decide (1 ≤ d) && decide (d ≤ divMax)
  | .reserved op => !plainOpcodes.contains op && !isDataShift op
  | .setBitmode mask mode => decide (mode = .syncBb) || decide (mask = 0)
  | .probe x => decide (x = OPC.probe1) || decide (x = OPC.probe2)
  | .chunkCmd p k => decide (1 ≤ max p.w.length p.r.length) && decide (k < max p.w.length p.r.length)
  | .bbFrame p => decide (1 ≤ max p.w.length p.r.length)
  | .setBitsLow _ _ | .readBitsLow | .setBitsHigh _ _ | .readBitsHigh | .sendImmediate | .div5Off | .div5On
  | .clk3PhaseOn | .clk3PhaseOff | .driveZeroOnly _ _ | .probe1 | .probe2 | .badCmd _ | .bbSample _
  | .resetDevice | .init | .setRate _ | .devOpen | .devClose | .spiConnect _ _ _ | .spiTx _ _ | .spiTxPackets _
  | .spiClose | .i2cOpen _ | .i2cSetSpeed _ | .i2cTx _ _ _ | .i2cClose | .gpioOut _ _ _ | .gpioIn _ _
  | .gpioRead _ _ | .spiHeader | .spiTrailer | .i2cStart | .i2cStop | .i2cIdle | .i2cWb _ | .i2cRb _ => true

/-- The host requests of R49: the only instructions a host may run (R50). -/
def Instr.isRequest : Instr → Bool
  | .devOpen | .devClose | .spiConnect _ _ _ | .spiTx _ _ | .spiTxPackets _ | .spiClose | .i2cOpen _
  | .i2cSetSpeed _ | .i2cTx _ _ _ | .i2cClose | .gpioOut _ _ _ | .gpioIn _ _ | .gpioRead _ _ => true
  | .dataShift _ _ _ | .shiftBytesOut10 _ | .shiftBytesOut11 _ | .shiftBytesOut18 _ | .shiftBytesOut19 _
  | .shiftBytesIn _ | .shiftBytesInout31 _ | .shiftBytesInout34 _ | .shiftBytesInout39 _ | .shiftBytesInout3C _
  | .shiftBitsIn _ | .shiftBitsOut _ _ | .setBitsLow _ _ | .readBitsLow | .setBitsHigh _ _ | .readBitsHigh
  | .setDivisor _ | .sendImmediate | .div5Off | .div5On | .clk3PhaseOn | .clk3PhaseOff | .driveZeroOnly _ _
  | .probe1 | .probe2 | .reserved _ | .badCmd _ | .bbSample _ | .resetDevice | .init | .setBitmode _ _
  | .setRate _ | .spiHeader | .spiTrailer | .chunkCmd _ _ | .clockCmds _ _ | .probe _ | .i2cStart | .i2cStop
  | .i2cIdle | .i2cWb _ | .i2cRb _ | .bbFrame _ => false

end Sys2Proof
end

