-- ==== Sys2Proof/Decode.lean ====
section
/-! DEFINITION. The command stream's encodings (30_encoding.md section 2): the data-shift opcode layout, the decoder
(total on any bytes), the encoder, the two other byte streams (a BB sample, a BAD_CMD response), and the decoding of
one word of spec/opcode_table.json. Host requests, control requests and composites have no word of their own. -/

namespace Sys2Proof

/-- `lo8(n) = n mod 256` (R10). -/
def lo8 (n : Nat) : Byte := BitVec.ofNat 8 n

/-- `hi8(n) = (n div 256) mod 256` (R10). -/
def hi8 (n : Nat) : Byte := BitVec.ofNat 8 (n / 256)

/-- The mode operand of `SET_BITMODE` as its code (R74). -/
def BitMode.code : BitMode → Byte
  | .reset => OPC.modeReset
  | .cmdStream => OPC.modeCmdStream
  | .syncBb => OPC.modeSyncBb

/-- A 16-bit field, low byte first (R34). -/
def field16 (n : Nat) : List Byte := [lo8 n, hi8 n]

/-- The value of a 16-bit field, low byte first (R34, R70). -/
def readField16 (lo hi : Byte) : Nat := lo.toNat + 256 * hi.toNat

/-- One selector's bit of a data-shift opcode. -/
def selBit (on : Bool) (mask : Byte) : Byte := if on then mask else 0

/-- The opcode byte of six selector bits (R58). -/
def ShiftSel.opcode (sel : ShiftSel) : Byte :=
  selBit sel.inn OPC.dsIn ||| selBit sel.out OPC.dsOut ||| selBit sel.lsb OPC.dsLsb
    ||| selBit sel.inFall OPC.dsInFall ||| selBit sel.bits OPC.dsBits ||| selBit sel.outFall OPC.dsOutFall

/-- The six selector bits of an opcode byte (R58). -/
def ShiftSel.ofOpcode (op : Byte) : ShiftSel :=
  { inn := decide (op &&& OPC.dsIn ≠ 0), out := decide (op &&& OPC.dsOut ≠ 0), lsb := decide (op &&& OPC.dsLsb ≠ 0),
    inFall := decide (op &&& OPC.dsInFall ≠ 0), bits := decide (op &&& OPC.dsBits ≠ 0),
    outFall := decide (op &&& OPC.dsOutFall ≠ 0) }

/-- The selectors `buildTransferOp` sets: `O` only with `OUT`, and `I` only with `IN` (R58). -/
def transferSel (doWrite doRead writeFall readFall lsbFirst bitMode : Bool) : ShiftSel :=
  { inn := doRead, out := doWrite, lsb := lsbFirst, inFall := doRead && readFall, bits := bitMode,
    outFall := doWrite && writeFall }

/-- `buildTransferOp` (R58). -/
def buildTransferOp (doWrite doRead writeFall readFall lsbFirst bitMode : Bool) : Byte :=
  (transferSel doWrite doRead writeFall readFall lsbFirst bitMode).opcode

/-! The selectors of the data-shift rows of spec/opcode_table.json, named by opcode (R69). -/

def sel10 : ShiftSel := transferSel true false false false false false
def sel11 : ShiftSel := transferSel true false true false false false
def sel18 : ShiftSel := transferSel true false false false true false
def sel19 : ShiftSel := transferSel true false true false true false
def sel20 : ShiftSel := transferSel false true false false false false
def sel31 : ShiftSel := transferSel true true true false false false
def sel34 : ShiftSel := transferSel true true false true false false
def sel39 : ShiftSel := transferSel true true true false true false
def sel3C : ShiftSel := transferSel true true false true true false
def sel22 : ShiftSel := transferSel false true false false false true
def sel13 : ShiftSel := transferSel true false true false false true

/-- The data-shift selectors the STE emits (R69). -/
def emittedSels : List ShiftSel :=
  [sel10, sel11, sel18, sel19, sel20, sel31, sel34, sel39, sel3C, sel22, sel13]

/-- The selectors, count and payload of a data-shift instruction; `none` for every other instruction. -/
def Instr.shift? : Instr → Option (ShiftSel × Nat × List Byte)
  | .dataShift sel n p => some (sel, n, p)
  | .shiftBytesOut10 p => some (sel10, p.length, p)
  | .shiftBytesOut11 p => some (sel11, p.length, p)
  | .shiftBytesOut18 p => some (sel18, p.length, p)
  | .shiftBytesOut19 p => some (sel19, p.length, p)
  | .shiftBytesIn n => some (sel20, n, [])
  | .shiftBytesInout31 p => some (sel31, p.length, p)
  | .shiftBytesInout34 p => some (sel34, p.length, p)
  | .shiftBytesInout39 p => some (sel39, p.length, p)
  | .shiftBytesInout3C p => some (sel3C, p.length, p)
  | .shiftBitsIn nb => some (sel22, nb, [])
  | .shiftBitsOut nb b => some (sel13, nb, [b])
  | _ => none

/-- The instruction of a data shift: the row of its opcode where the table has one, else DATA_SHIFT. -/
def Instr.ofShift (sel : ShiftSel) (n : Nat) (p : List Byte) : Instr :=
  if sel = sel10 then .shiftBytesOut10 p
  else if sel = sel11 then .shiftBytesOut11 p
  else if sel = sel18 then .shiftBytesOut18 p
  else if sel = sel19 then .shiftBytesOut19 p
  else if sel = sel20 then .shiftBytesIn n
  else if sel = sel31 then .shiftBytesInout31 p
  else if sel = sel34 then .shiftBytesInout34 p
  else if sel = sel39 then .shiftBytesInout39 p
  else if sel = sel3C then .shiftBytesInout3C p
  else if sel = sel22 then .shiftBitsIn n
  else if sel = sel13 then .shiftBitsOut n (p.headD 0)
  else .dataShift sel n p

/-- Why bytes are no command. -/
inductive DecodeError where
  /-- There is no byte. -/
  | empty
  /-- The command of this opcode has fewer bytes than R70 gives it. -/
  | truncated (op : Byte)
  /-- A bit-mode command's count byte is above 7 (R61). -/
  | badBitCount (op : Byte) (count : Byte)
  /-- A response's first byte is not the BAD_CMD marker (R68). -/
  | notMarker (b : Byte)
  deriving DecidableEq, Repr

/-- What a decoder answers: an instruction and the bytes after it, or a named rejection. -/
abbrev Decoded := Except DecodeError (Instr × List Byte)

/-- The payload of a data shift: `len` bytes (R60, R61). -/
def decodePayload (op : Byte) (sel : ShiftSel) (n len : Nat) (rest : List Byte) : Decoded :=
  if len ≤ rest.length then .ok (Instr.ofShift sel n (rest.take len), rest.drop len) else .error (.truncated op)

/-- A data-shift command after its opcode byte (R60, R61, R70). -/
def decodeShift (op : Byte) (rest : List Byte) : Decoded :=
  let sel := ShiftSel.ofOpcode op
  if sel.bits then
    match rest with
    | [] => .error (.truncated op)
    | nb :: rest =>
      if nb.toNat < 8 then decodePayload op sel (nb.toNat + 1) (if sel.out then 1 else 0) rest
      else .error (.badBitCount op nb)
  else
    match rest with
    | lo :: hi :: rest =>
      let n := readField16 lo hi + 1
      decodePayload op sel n (if sel.out then n else 0) rest
    | _ => .error (.truncated op)

/-- A 3-byte command after its opcode byte (R70). -/
def decodeTwo (op : Byte) (f : Byte → Byte → Instr) : List Byte → Decoded
  | a :: b :: rest => .ok (f a b, rest)
  | _ => .error (.truncated op)

/-- The first command of a command stream (R57, R70). A byte that R70 gives no length decodes to RESERVED (R69). -/
def decode : List Byte → Decoded
  | [] => .error .empty
  | op :: rest =>
    if op = OPC.setBitsLow then decodeTwo op .setBitsLow rest
    else if op = OPC.readBitsLow then .ok (.readBitsLow, rest)
    else if op = OPC.setBitsHigh then decodeTwo op .setBitsHigh rest
    else if op = OPC.readBitsHigh then .ok (.readBitsHigh, rest)
    else if op = OPC.setDivisor then decodeTwo op (fun lo hi => .setDivisor (readField16 lo hi + 1)) rest
    else if op = OPC.sendImmediate then .ok (.sendImmediate, rest)
    else if op = OPC.div5Off then .ok (.div5Off, rest)
    else if op = OPC.div5On then .ok (.div5On, rest)
    else if op = OPC.clk3On then .ok (.clk3PhaseOn, rest)
    else if op = OPC.clk3Off then .ok (.clk3PhaseOff, rest)
    else if op = OPC.driveZeroOnly then decodeTwo op .driveZeroOnly rest
    else if op = OPC.probe1 then .ok (.probe1, rest)
    else if op = OPC.probe2 then .ok (.probe2, rest)
    else if isDataShift op then decodeShift op rest
    else .ok (.reserved op, rest)

/-- In SYNC_BB mode every byte is one sample (R75). -/
def decodeSample : List Byte → Decoded
  | [] => .error .empty
  | b :: rest => .ok (.bbSample b, rest)

/-- The bridge's two-byte answer to an opcode it does not recognise (R68). -/
def decodeResponse : List Byte → Decoded
  | [] => .error .empty
  | [b] => if b = OPC.badCmd then .error (.truncated b) else .error (.notMarker b)
  | b :: op :: rest => if b = OPC.badCmd then .ok (.badCmd op, rest) else .error (.notMarker b)

/-- The bytes of a data shift (R60, R61). -/
def encodeShift (sel : ShiftSel) (n : Nat) (p : List Byte) : List Byte :=
  sel.opcode :: ((if sel.bits then [lo8 (n - 1)] else field16 (n - 1)) ++ p)

/-- The bytes of an instruction that is no data shift (R62 to R68, R75). A host request, a control request and a
composite have none. -/
def encodePlain : Instr → List Byte
  | .setBitsLow val dir => [OPC.setBitsLow, val, dir]
  | .readBitsLow => [OPC.readBitsLow]
  | .setBitsHigh val dir => [OPC.setBitsHigh, val, dir]
  | .readBitsHigh => [OPC.readBitsHigh]
  | .setDivisor d => OPC.setDivisor :: field16 (d - 1)
  | .sendImmediate => [OPC.sendImmediate]
  | .div5Off => [OPC.div5Off]
  | .div5On => [OPC.div5On]
  | .clk3PhaseOn => [OPC.clk3On]
  | .clk3PhaseOff => [OPC.clk3Off]
  | .driveZeroOnly maskD maskC => [OPC.driveZeroOnly, maskD, maskC]
  | .probe1 => [OPC.probe1]
  | .probe2 => [OPC.probe2]
  | .reserved op => [op]
  | .badCmd op => [OPC.badCmd, op]
  | .bbSample b => [b]
  | .dataShift _ _ _ | .shiftBytesOut10 _ | .shiftBytesOut11 _ | .shiftBytesOut18 _ | .shiftBytesOut19 _
  | .shiftBytesIn _ | .shiftBytesInout31 _ | .shiftBytesInout34 _ | .shiftBytesInout39 _ | .shiftBytesInout3C _
  | .shiftBitsIn _ | .shiftBitsOut _ _ | .resetDevice | .init
  | .setBitmode _ _ | .setRate _ | .devOpen | .devClose | .spiConnect _ _ _ | .spiTx _ _ | .spiTxPackets _
  | .spiClose | .i2cOpen _ | .i2cSetSpeed _ | .i2cTx _ _ _ | .i2cClose | .gpioOut _ _ _ | .gpioIn _ _
  | .gpioRead _ _ | .spiHeader | .spiTrailer | .chunkCmd _ _ | .clockCmds _ _ | .probe _ | .i2cStart | .i2cStop
  | .i2cIdle | .i2cWb _ | .i2cRb _ | .bbFrame _ => []

/-- The bytes of an instruction (R57 to R68, R75). -/
def encode (i : Instr) : List Byte :=
  match i.shift? with
  | some (sel, n, p) => encodeShift sel n p
  | none => encodePlain i

/-- The bytes of a sequence of commands. -/
def encodeAll (cs : List Instr) : List Byte := cs.flatMap encode

/-- The commands of the command stream that are no data shift (R62 to R68). -/
def Instr.isPlain : Instr → Bool
  | .setBitsLow _ _ | .readBitsLow | .setBitsHigh _ _ | .readBitsHigh | .setDivisor _ | .sendImmediate | .div5Off
  | .div5On | .clk3PhaseOn | .clk3PhaseOff | .driveZeroOnly _ _ | .probe1 | .probe2 => true
  | .dataShift _ _ _ | .shiftBytesOut10 _ | .shiftBytesOut11 _ | .shiftBytesOut18 _ | .shiftBytesOut19 _
  | .shiftBytesIn _ | .shiftBytesInout31 _ | .shiftBytesInout34 _ | .shiftBytesInout39 _ | .shiftBytesInout3C _
  | .shiftBitsIn _ | .shiftBitsOut _ _ | .reserved _ | .badCmd _ | .bbSample _ | .resetDevice | .init
  | .setBitmode _ _ | .setRate _ | .devOpen | .devClose | .spiConnect _ _ _ | .spiTx _ _ | .spiTxPackets _
  | .spiClose | .i2cOpen _ | .i2cSetSpeed _ | .i2cTx _ _ _ | .i2cClose | .gpioOut _ _ _ | .gpioIn _ _
  | .gpioRead _ _ | .spiHeader | .spiTrailer | .chunkCmd _ _ | .clockCmds _ _ | .probe _ | .i2cStart | .i2cStop
  | .i2cIdle | .i2cWb _ | .i2cRb _ | .bbFrame _ => false

/-- The instructions that are commands of the command stream (R57). -/
def Instr.isCommand (i : Instr) : Bool := i.shift?.isSome || i.isPlain

/-- A data shift's opcode is in R69's list. -/
def Instr.listed : Instr → Bool
  | .dataShift sel _ _ => emittedSels.contains sel
  | _ => true

/-- An opcode the bridge is known to recognise: those of R69's list but for the two probes, which are deliberately invalid
(R68). Of a byte outside that list no source says whether the bridge recognises it (R69, U15). -/
def isRecognised (op : Byte) : Bool :=
  (plainOpcodes.contains op && decide (op ≠ OPC.probe1) && decide (op ≠ OPC.probe2))
    || emittedSels.contains (ShiftSel.ofOpcode op) && isDataShift op

/-- The commands the STE may emit: well formed, and with an opcode of R69's list. -/
def Instr.emittable (i : Instr) : Bool := i.isCommand && i.wf && i.listed

/-- RESERVED, whose one byte the decoder names (R69). -/
def Instr.isReserved : Instr → Bool
  | .reserved _ => true
  | _ => false

/-- DATA_SHIFT of an opcode that has its own row. -/
def Instr.isRowShift : Instr → Bool
  | .dataShift sel _ _ => emittedSels.contains sel
  | _ => false

/-- The instructions whose command-stream words stand for themselves: commands and RESERVED, and DATA_SHIFT only where
no other row has its opcode. -/
def Instr.encodable (i : Instr) : Bool := i.wf && (i.isCommand || i.isReserved) && !i.isRowShift

/-- How many bytes the first command of a stream has, told by its opcode and length field (R70); `none` where R70
refuses, or where the length field is not there yet. -/
def commandLength : List Byte → Option Nat
  | [] => none
  | op :: rest =>
    if op = OPC.setBitsLow ∨ op = OPC.setBitsHigh ∨ op = OPC.setDivisor ∨ op = OPC.driveZeroOnly then some 3
    else if plainOpcodes.contains op then some 1
    else if isDataShift op then
      if op &&& OPC.dsBits ≠ 0 then some (if op &&& OPC.dsOut ≠ 0 then 3 else 2)
      else
        match rest with
        | lo :: hi :: _ => some (if op &&& OPC.dsOut ≠ 0 then 3 + (readField16 lo hi + 1) else 3)
        | _ => none
    else none

/-- The bytes of a word numbered as spec/opcode_table.json numbers it: the first byte is bits 7..0. -/
def wordBytes (nbits w : Nat) : List Byte :=
  (List.range ((nbits + 7) / 8)).map fun k => BitVec.ofNat 8 (w / 256 ^ k)

/-- Cut or pad with zero bytes to a length. -/
def fitTo (len : Nat) (bs : List Byte) : List Byte := bs.take len ++ List.replicate (len - bs.length) 0

/-- A word of the table as its stream holds it: every byte the instruction has above `nbits` is 0. -/
def tableBytes (nbits w : Nat) : List Byte :=
  let bs := wordBytes nbits w
  if bs.head? = some OPC.badCmd then fitTo 2 bs
  else
    match commandLength (bs ++ [0, 0]) with
    | some len => fitTo len bs
    | none => fitTo 1 bs

/-- The stream a word of the table belongs to: BAD_CMD is a response, every other word a command. -/
def decodeTable (bs : List Byte) : Decoded :=
  if bs.head? = some OPC.badCmd then decodeResponse bs else decode bs

/-- The instruction the decoder reads from a word of spec/opcode_table.json. -/
def decodeTableWord (nbits w : Nat) : Option Instr :=
  match decodeTable (tableBytes nbits w) with
  | .ok (i, _) => some i
  | .error _ => none

end Sys2Proof
end

