-- ==== Sys2Proof/Machine/State.lean ====
section
/-! DEFINITION. Everything the machine holds: the STE's state `S` (10_state.md R13), the bridge-side state the STE's
emissions change (R25), the host's read buffers (20_memory.md R29), the ports instructions come from, the answers of
the outside world (00_scope.md R11), and the observation of a run (R6). Plain data throughout. -/

namespace Sys2Proof.Machine

/-- `S.dev` (R15). -/
inductive Dev where
  | closed
  | opened
  | failed
  deriving DecidableEq, Repr, Inhabited

/-- `S.mux`: the mode the STE last commanded the bridge into (R16). -/
inductive Mux where
  | unknown
  | reset
  | cmdStream
  | syncBb
  deriving DecidableEq, Repr, Inhabited

/-- `S.grp[g]`: direction mask (1 = output), value mask, and whether the pins may not match them (R17, R18). -/
structure Group where
  dir : Byte
  val : Byte
  indet : Bool
  deriving DecidableEq, Repr, Inhabited

/-- The SPI connection record of `S.spi` (R22). -/
structure SpiConn where
  cpha : Bool
  cpol : Bool
  nocs : Bool
  lsbf : Bool
  freq : Nat
  deriving DecidableEq, Repr, Inhabited

/-- The I²C bus record of `S.i2c` (R24). -/
structure I2cBus where
  rate : Nat
  deriving DecidableEq, Repr, Inhabited

/-- The STE state `S`, with exactly the fields of R13. `none` is INVALID (R22, R24) or NONE (R21). `grpC` is used on
CMD only and `bbdir` on BB only (R13, assumption 19). -/
structure Ste where
  dev : Dev
  mux : Mux
  grpD : Group
  grpC : Group
  usingSpi : Bool
  usingI2c : Bool
  clk : Option Rat
  spi : Option SpiConn
  i2c : Option I2cBus
  bbdir : Byte
  deriving DecidableEq, Repr

/-- What a response byte not yet read answers: the STE knows it only by position (R43, R71). Its value is a draw. -/
inductive Resp where
  /-- a byte of a byte-mode shift in (R60) -/
  | data
  /-- the byte of a bit-mode shift in of `nb` bits (R61) -/
  | bits (nb : Nat)
  /-- the sampled pins of a group (R63) -/
  | pins (g : GroupId)
  /-- the BAD_CMD marker (R68) -/
  | marker
  /-- the opcode echoed after the marker (R68) -/
  | echo (op : Byte)
  /-- a returned BB sample (R76) -/
  | sample
  deriving DecidableEq, Repr, Inhabited

/-- The bridge-side state (R25). The STE never reads it; it records what the emitted commands do (R60 to R68, R74 to
R76). While `aligned` is false the pins and the pending responses may be free values (R46, 93_implementation_defined.md U9, U10,
U12, U14), and the serial clock keeps R21's bound, after an error in CLOCK_SELECT too (assumption 9, DESIGN CHOICE). After a
transport error the pins of the group it struck may be free values as well (U9). -/
structure Bridge where
  /-- the command parse position is at a command boundary -/
  aligned : Bool
  /-- the low clock base is selected (R64) -/
  lowBase : Bool
  /-- the clock divisor, 1 to 65536 (R64) -/
  divisor : Nat
  /-- three-phase clocking is on (R65) -/
  threePhase : Bool
  /-- the open-drain masks (R66) -/
  odD : Byte
  odC : Byte
  /-- what the last group set or sample loaded into the output latches, and the directions (R62, R75) -/
  latchD : Byte
  dirD : Byte
  latchC : Byte
  dirC : Byte
  /-- the BB sample rate, `none` while unprogrammed (R74, R161) -/
  rate : Option Nat
  /-- the bits data-shift commands have shifted out, oldest first (R35, R36, R61) -/
  wire : List Bool
  /-- response bytes queued at the bridge, oldest first (R25, R60, R67) -/
  queue : List Resp
  /-- response bytes returned to the host side and not yet read, oldest first (R67, R79) -/
  sent : List Resp
  /-- the model's own counter: how many free bridge states have been drawn -/
  fresh : Nat
  deriving DecidableEq, Repr, Inhabited

/-- The draws of R11: the scripts of the next logical writes, reads, drains and control requests, and the model's own
counter of draws taken after a list of scripts has run out (those come from `Config`'s constants). -/
structure Env where
  wr : List (List (Nat × Bool))
  rd : List RdScript
  fl : List (List Turn)
  ctrl : List Bool
  fresh : Nat
  deriving DecidableEq, Repr

/-- How a logical read ended (R82). -/
inductive RdStatus where
  | ok
  | truncated
  | failed
  deriving DecidableEq, Repr, Inhabited

/-- A control request (R74). -/
inductive CtrlReq where
  | resetDevice
  | init
  | setBitmode (mask : Byte) (mode : BitMode)
  | setRate (r : Nat)
  deriving DecidableEq, Repr

/-- An event of the trace with its answer (R6, R10). -/
inductive Event where
  /-- `CTRL(q)` -/
  | ctrl (q : CtrlReq) (ok : Bool)
  /-- `WR(bs)`, with the count of bytes accepted -/
  | wr (bs : List Byte) (accepted : Nat) (ok : Bool)
  /-- `RD(n)`, with the bytes received -/
  | rd (n : Nat) (got : List Byte) (status : RdStatus)
  /-- `FLUSH`, with the bytes discarded -/
  | flush (dropped : List Byte) (ok : Bool)
  deriving DecidableEq, Repr

/-- The operation tag of a transport error, with `write`'s partial count (R85, R143). -/
inductive Tag where
  | write (n : Nat)
  | readAvailable
  | control
  deriving DecidableEq, Repr

/-- The error codes, in the order of R143. -/
inductive Err where
  | notOpen
  | inUse
  | notSupported
  | notConnected
  | bitsNotMultiple8
  | bitsUnsupported
  | freqTooLow
  | halfDuplex
  | modeUnknown
  | keepCs
  | emptyPacket
  | lenMismatch
  | clockTooLow
  | pullupUnsupported
  | addrRange
  | pinBusy
  | nak
  | transport (tag : Tag)
  | truncated
  | verifyFailed
  deriving DecidableEq, Repr

/-- The values a successful request returns (R49). -/
inductive Reply where
  | unit
  | bytes (r : List Byte)
  | bufs (rs : List (List Byte))
  | level (b : Bool)
  deriving DecidableEq, Repr

/-- A request's result: `err = none` is success, else its one error code (R143, R146). -/
structure Result where
  err : Option Err
  reply : Reply
  deriving DecidableEq, Repr

/-- One thing placed on the test bench: a run of command-stream bytes (samples on BB), a run of response bytes, or
one instruction that has no word of its own (R50). -/
inductive Bench where
  | bytes (bs : List Byte)
  | response (bs : List Byte)
  | named (i : Instr)
  deriving DecidableEq, Repr

/-- The whole machine. -/
structure State where
  /-- the parameters of this model instance (R7); no step changes them -/
  cfg : Params
  /-- the STE state `S` (R13) -/
  ste : Ste
  /-- the read buffers of the latest request that has any, by packet (R29 (1), R31) -/
  bufs : List (List Byte)
  /-- the bridge-side state (R25) -/
  bridge : Bridge
  /-- the draws to come (R11) -/
  env : Env
  /-- the host's requests in the order they acquire the lock (R42 (a), R142) -/
  calls : List Instr
  /-- internal primitives exposed for testing (R50); no request reaches it -/
  bench : List Bench
  /-- the event trace, oldest first (R6) -/
  trace : List Event
  /-- the results, oldest first (R6) -/
  results : List Result
  deriving DecidableEq, Repr

/-- The machine has no fault: every failure condition of the spec is an error code in a request's result (R143), or a
refusal. -/
inductive Fault where
  deriving DecidableEq, Repr

/-- Why a step is refused. Every refusal leaves no next state, so none can make a false claim provable (safe). -/
inductive Refusal where
  /-- Raised by an arm of `exec` whose instruction has no meaning yet. Safe. -/
  | notModelled (mnemonic : String)
  /-- Raised by `step`: the parameter set breaks R8 (U23). Safe. -/
  | badParams
  /-- Raised by `step`: a host may run only the requests of R49 (R50). Safe. -/
  | notARequest
  /-- Raised by `step`: bytes on the test bench are no instruction of their stream (R70). Safe. -/
  | undecodable (e : DecodeError)
  /-- Raised by a meaning that would emit an opcode outside R69's list (R69, U15). Safe. -/
  | reservedOpcode (op : Byte)
  /-- Raised by a meaning whose operand has no encoding (R60, R61, R64, R74). Safe. -/
  | badOperand
  /-- Raised by CHUNK_CMD: the packet has no chunk of that number (R106). Safe. -/
  | noSuchChunk
  /-- Raised by BB_SAMPLE and BB_FRAME where the personality is not BB, and by SET_RATE where the mode is not SYNC_BB: there
  is no sample stream (R75, R74). Safe. -/
  | noSampleStream
  deriving DecidableEq, Repr

/-- `S` at reset (R27). The fields R27 leaves unspecified are 0 (assumption 3, DESIGN CHOICE, unsafe). -/
def Ste.reset : Ste :=
  { dev := .closed, mux := .unknown, grpD := ⟨0, 0, true⟩, grpC := ⟨0, 0, true⟩, usingSpi := false,
    usingI2c := false, clk := none, spi := none, i2c := none, bbdir := 0 }

/-- The bridge before anything was sent to it: unknown, so not aligned (U14); the values are assumption 4. -/
def Bridge.reset : Bridge :=
  { aligned := false, lowBase := false, divisor := 1, threePhase := false, odD := 0, odC := 0, latchD := 0,
    dirD := 0, latchC := 0, dirC := 0, rate := none, wire := [], queue := [], sent := [], fresh := 0 }

/-- No script is laid in: every answer is a free value. -/
def Env.reset : Env := { wr := [], rd := [], fl := [], ctrl := [], fresh := 0 }

/-- A newly constructed STE with given parameters (R159). -/
def State.resetWith (p : Params) : State :=
  { cfg := p, ste := Ste.reset, bufs := [], bridge := Bridge.reset, env := Env.reset, calls := [], bench := [],
    trace := [], results := [] }

/-- The machine right after reset (R27, R159), for the parameters of `Params.default` (assumption 2). -/
def State.reset : State := State.resetWith Params.default

end Sys2Proof.Machine

namespace Sys2Proof

/-- The bridge's state where nothing determines it (U9, U12, U14), at the bridge's own counter. -/
opaque Config.freeBridge : Nat → Machine.Bridge

end Sys2Proof
end

