-- ==== Sys2Proof/Machine/Operands.lean ====
section
/-! DEFINITION. Operand forms and the values computed from them: host buffers, packet validity, the mode word, the line
values of both engines, the clock divisor, and every composite sequence of 30_encoding.md R78. -/

namespace Sys2Proof.Machine

/-- `ceil_div(a, b)` (R10). -/
def ceilDiv (a b : Nat) : Nat := (a + b - 1) / b

/-- `rep(k, xs)` (R10). -/
def rep {α : Type} (k : Nat) (xs : List α) : List α := (List.replicate k xs).flatten

/-! ### Host buffers (R10, R29 to R32) -/

/-- `MemRead(buf, i, n)` (R10, R30). -/
def memRead (buf : List Byte) (i n : Nat) : List Byte := (buf.drop i).take n

/-- `MemWrite(buf, i, n, v)` with `n = len(v)` (R10, R31): the bytes of `v` from index `i` on. -/
def memWrite (buf : List Byte) (i : Nat) (v : List Byte) : List Byte :=
  buf.take i ++ v.take (buf.length - i) ++ buf.drop (i + v.length)

/-! ### Packets (R52, R53) -/

/-- `n(p)` (R53). -/
def packetLen (p : Packet) : Nat := max p.w.length p.r.length

/-- `hasW` (R52, R106). -/
def hasW (p : Packet) : Bool := decide (0 < p.w.length)

/-- `hasR` (R52, R106). -/
def hasR (p : Packet) : Bool := decide (0 < p.r.length)

/-- The word-width checks, in their order (R53, R100). -/
def checkBits (bits : Nat) : Option Err :=
  if bits % wordBits ≠ 0 then some .bitsNotMultiple8
  else if bits ≠ wordBits then some .bitsUnsupported
  else none

/-- `valid(p)`: the first failing check, or `none` (R53). -/
def packetError (p : Packet) : Option Err :=
  if p.keepCs then some .keepCs
  else
    match checkBits p.bits with
    | some e => some e
    | none =>
      if p.w.length = 0 ∧ p.r.length = 0 then some .emptyPacket
      else if 0 < p.w.length ∧ 0 < p.r.length ∧ p.w.length ≠ p.r.length then some .lenMismatch
      else none

/-- The first error of a list of packets, in list order (R103, R144). -/
def packetsError : List Packet → Option Err
  | [] => none
  | p :: ps =>
    match packetError p with
    | some e => some e
    | none => packetsError ps

/-- The one packet of `SPI_TX(w, r)` (R54). -/
def txPacketOf (w r : List Byte) : Packet := { w := w, r := r, keepCs := false, bits := wordBits }

/-! ### The SPI mode word (R51) -/

/-- What an accepted mode word decomposes into. -/
structure SpiMode where
  cpha : Bool
  cpol : Bool
  nocs : Bool
  lsbf : Bool
  deriving DecidableEq, Repr

/-- The mode word without its three flag bits (R51, `rest`). -/
def modeRest (mode : Nat) : Nat := mode - (mode &&& modeFlags)

/-- Decomposition (R51): half-duplex is refused before the unknown bits. -/
def decomposeMode (mode : Nat) : Except Err SpiMode :=
  if mode.testBit modeHalf then .error .halfDuplex
  else if 3 < modeRest mode then .error .modeUnknown
  else
    .ok { cpha := (modeRest mode).testBit modeCpha, cpol := (modeRest mode).testBit modeCpol,
          nocs := mode.testBit modeNoCs, lsbf := mode.testBit modeLsb }

/-- Reconstruction (R51, R102). -/
def composeMode (m : SpiMode) : Nat :=
  m.cpha.toNat <<< modeCpha ||| m.cpol.toNat <<< modeCpol ||| m.nocs.toNat <<< modeNoCs ||| m.lsbf.toNat <<< modeLsb

/-! ### SPI line values (R23) -/

/-- A pin's bit where a condition holds, else 0. -/
def pinIf (on : Bool) (pin : Byte) : Byte := if on then pin else 0

/-- `spiMask` (R23). -/
def spiMask (c : SpiConn) : Byte := pinSck ||| pinMosi ||| pinIf (!c.nocs) pinCs

/-- `spiDir` (R23). -/
def spiDir (c : SpiConn) (g : Group) : Byte := (g.dir ||| spiMask c) &&& ~~~pinMiso

/-- `spiIdle` (R23). -/
def spiIdle (c : SpiConn) (g : Group) : Byte :=
  (g.val &&& ~~~(spiMask c)) ||| pinIf c.cpol pinSck ||| pinIf (!c.nocs) pinCs

/-- `spiAssert` (R23). -/
def spiAssert (c : SpiConn) (g : Group) : Byte := spiIdle c g &&& ~~~(pinIf (!c.nocs) pinCs)

/-- `writeFall` (R59). -/
def writeFall (c : SpiConn) : Bool := c.cpol == c.cpha

/-- `readFall` (R59). -/
def readFall (c : SpiConn) : Bool := !writeFall c

/-! ### SPI composites on CMD (R104 to R106) -/

/-- `SPI_HEADER` (R104). -/
def spiHeaderSeq (c : SpiConn) (g : Group) : List Instr :=
  .setBitsLow (spiIdle c g) (spiDir c g) :: (if c.nocs then [] else [.setBitsLow (spiAssert c g) (spiDir c g)])

/-- `SPI_TRAILER` (R104). -/
def spiTrailerSeq (c : SpiConn) (g : Group) : List Instr :=
  if c.nocs then [] else [.setBitsLow (spiIdle c g) (spiDir c g)]

/-- The number of chunks, `m` (R106). -/
def chunkCount (chunk : Nat) (p : Packet) : Nat := ceilDiv (packetLen p) chunk

/-- The length of chunk `k`, `m_k` (R106). -/
def chunkLen (chunk : Nat) (p : Packet) (k : Nat) : Nat := min chunk (packetLen p - k * chunk)

/-- `src`: the write buffer, or the read buffer's own bytes as they stand now (R30, R106). -/
def chunkSrc (p : Packet) (r : List Byte) : List Byte := if hasW p then p.w else r

/-- `CHUNK_CMD(k)` with the read buffer's present contents `r` (R106). -/
def chunkSeq (c : SpiConn) (chunk : Nat) (p : Packet) (r : List Byte) (k : Nat) : List Instr :=
  Instr.ofShift (transferSel true (hasR p) (writeFall c) (readFall c) c.lsbf false) (chunkLen chunk p k)
      (memRead (chunkSrc p r) (k * chunk) (chunkLen chunk p k))
    :: (if hasR p then [.sendImmediate] else [])

/-! ### Bit order (R35, R36, R116) -/

/-- A byte's bits in the order they are shifted: bit 7 first, or bit 0 first (R35). -/
def shiftOrder (lsbFirst : Bool) (b : Byte) : List Bool :=
  (List.range 8).map fun k => b.getLsbD (if lsbFirst then k else 7 - k)

/-! ### The BB sample frame (R115 to R118) -/

/-- `smp(c, b)` (R116): the asserted idle level with the clock and data bits set as given. -/
def bbSmp (a : Byte) (clock bit : Bool) : Byte :=
  (a &&& ~~~(pinSck ||| pinMosi)) ||| pinIf clock pinSck ||| pinIf bit pinMosi

/-- The two samples of one bit (R116): idle then active level with CPHA = 0, active then idle with CPHA = 1. -/
def bbPair (c : SpiConn) (a : Byte) (bit : Bool) : List Byte :=
  if c.cpha then [bbSmp a (!c.cpol) bit, bbSmp a c.cpol bit] else [bbSmp a c.cpol bit, bbSmp a (!c.cpol) bit]

/-- The data byte `data(j)` of every index of a packet (R116): the write buffer, or zeros. -/
def bbData (p : Packet) : List Byte := if hasW p then p.w else List.replicate (packetLen p) 0

/-- `BB_FRAME(p)` (R116). -/
def bbFrameOf (c : SpiConn) (g : Group) (p : Packet) : List Byte :=
  let idle := spiIdle c g
  let assert := spiAssert c g
  [idle, assert] ++ ((bbData p).flatMap fun b => (shiftOrder c.lsbf b).flatMap (bbPair c assert)) ++ [assert, idle]

/-- The index of the returned sample that carries bit `k` of byte `j` (R117). -/
def bbIndex (lag j k : Nat) : Nat := bbPre + 16 * j + 2 * k + 1 + lag

/-- `BB_DECIM(resp, j)` (R117). -/
def bbDecim (c : SpiConn) (lag : Nat) (resp : List Byte) (j : Nat) : Byte :=
  (List.range 8).foldl (fun x k =>
    x ||| ((if (resp.getD (bbIndex lag j k) 0) &&& pinMiso ≠ 0 then 1 else 0) <<< (if c.lsbf then k else 7 - k))) 0

/-- The bytes a whole burst decimates to (R115). -/
def bbDecimAll (c : SpiConn) (lag : Nat) (resp : List Byte) (n : Nat) : List Byte :=
  (List.range n).map (bbDecim c lag resp)

/-! ### I²C line values and composites (R122, R126 to R128) -/

/-- `i2cDir` (R122). -/
def i2cDir (g : Group) : Byte := (g.dir ||| (pinSck ||| pinMosi)) &&& ~~~pinMiso

/-- `v(c, d)` (R122). -/
def i2cVal (g : Group) (scl sda : Bool) : Byte :=
  (g.val &&& ~~~(pinSck ||| pinMosi)) ||| pinIf scl pinSck ||| pinIf sda pinMosi

/-- `SET(c, d)` (R122). -/
def i2cSet (g : Group) (scl sda : Bool) : Instr := .setBitsLow (i2cVal g scl sda) (i2cDir g)

/-- `I2C_START` (R126). -/
def i2cStartSeq (k : Nat) (g : Group) : List Instr :=
  List.replicate k (i2cSet g true false) ++ List.replicate k (i2cSet g false false)

/-- `I2C_STOP` (R126). -/
def i2cStopSeq (k : Nat) (g : Group) : List Instr :=
  List.replicate k (i2cSet g false false) ++ List.replicate k (i2cSet g true false)
    ++ List.replicate k (i2cSet g true true)

/-- `I2C_IDLE` (R126). -/
def i2cIdleSeq (g : Group) : List Instr := [i2cSet g true true]

/-- `I2C_WB(b)` (R127). -/
def i2cWbSeq (g : Group) (b : Byte) : List Instr :=
  [.shiftBytesOut11 [b], i2cSet g false true, .shiftBitsIn 1, .sendImmediate]

/-- `I2C_RB(last)` (R128). -/
def i2cRbSeq (g : Group) (last : Bool) : List Instr :=
  [.shiftBytesIn 1, .shiftBitsOut 1 (if last then 0xFF else 0x00), i2cSet g false true, .sendImmediate]

/-! ### Clock selection (R64, R89 to R91) -/

/-- A natural frequency as an exact rational (R9). -/
def hz (n : Nat) : Rat := mkRat n 1

/-- `ceil(base / f)` for a positive rational `f`: the least `d` with `base / d ≤ f` (R89). -/
def clockDiv (base : Nat) (f : Rat) : Nat := ceilDiv (base * f.den) f.num.toNat

/-- The selected base in Hz (R64). -/
def clockBase (p : Params) (low : Bool) : Nat := if low then p.fBaseHi / baseDiv else p.fBaseHi

/-- The base and divisor `CLOCK_SELECT(f)` picks; `none` is `E_CLOCK_TOO_LOW` (R89). -/
def clockPlan (p : Params) (f : Rat) : Option (Bool × Nat) :=
  if f ≤ 0 then none
  else if clockDiv (clockBase p false) f ≤ divMax then some (false, clockDiv (clockBase p false) f)
  else if clockDiv (clockBase p true) f ≤ divMax then some (true, clockDiv (clockBase p true) f)
  else none

/-- The actual rate `base / d`, exact (R89). -/
def clockActual (p : Params) (low : Bool) (d : Nat) : Rat := mkRat (clockBase p low) d

/-- `CLOCK_CMDS(sel, d)` (R91). -/
def clockSeq (low : Bool) (d : Nat) : List Instr := [if low then .div5On else .div5Off, .setDivisor d]

/-- The clock target of an I²C rate, `3·rate/2` (R123, R124). -/
def i2cTarget (rate : Nat) : Rat := mkRat (3 * rate) 2

/-! ### Engine sequences (R93, R94, R100, R125) -/

/-- A probe opcode as an instruction (R68); `none` for a byte that is no probe. -/
def probeInstr (x : Byte) : Option Instr :=
  if x = OPC.probe1 then some .probe1 else if x = OPC.probe2 then some .probe2 else none

/-- The final write of `DEV_OPEN` on CMD (R94). -/
def openFinalSeq : List Instr := [.clk3PhaseOff, .driveZeroOnly 0 0, .setBitsLow 0 0, .setBitsHigh 0 0]

/-- The connect write of `SPI_CONNECT` on CMD (R100). -/
def connectSeq (c : SpiConn) (g : Group) : List Instr :=
  [.clk3PhaseOff, .driveZeroOnly 0 0, .setBitsLow (spiIdle c g) (spiDir c g)]

/-- The second write of `I2C_OPEN` (R123). -/
def i2cOpenSeq (g : Group) : List Instr := [.clk3PhaseOn, .driveZeroOnly (pinSck ||| pinMosi) 0] ++ i2cIdleSeq g

/-- The write of `I2C_CLOSE` (R125). -/
def i2cCloseSeq : List Instr := [.clk3PhaseOff, .driveZeroOnly 0 0]

end Sys2Proof.Machine
end

