-- ==== Sys2Proof/Machine/Flags.lean ====
section
/-! DEFINITION. The flag-like values (10_state.md R26) and what sets them: the claim flags with the pins they claim,
the acknowledge bit, the error classes, and the GPIO group cache with its indeterminate flag (41_engine.md R97). -/

namespace Sys2Proof.Machine

/-! ### The GPIO group cache (R17, R18, R97) -/

/-- `S.grp[g]` (R17). -/
def Ste.grp (s : Ste) : GroupId → Group
  | .d => s.grpD
  | .c => s.grpC

/-- Replace `S.grp[g]`. -/
def Ste.setGrp (s : Ste) (g : GroupId) (v : Group) : Ste :=
  match g with
  | .d => { s with grpD := v }
  | .c => { s with grpC := v }

/-- Set `S.grp[g].indet` (R18). -/
def Ste.setIndet (s : Ste) (g : GroupId) (b : Bool) : Ste := s.setGrp g { s.grp g with indet := b }

/-- What one command of a successful write leaves in the cache (R97). -/
def trackSet (s : Ste) (i : Instr) : Ste :=
  match i with
  | .setBitsLow val dir => s.setGrp .d { dir := dir, val := val, indet := false }
  | .setBitsHigh val dir => s.setGrp .c { dir := dir, val := val, indet := false }
  | _ => s

/-- The cache after a successful write of commands: the last set of each group counts (R97). -/
def trackSets (cs : List Instr) (s : Ste) : Ste := cs.foldl trackSet s

/-- What one command of a failed write leaves in the cache (R97). -/
def trackFail (s : Ste) (i : Instr) : Ste :=
  match i with
  | .setBitsLow _ _ => s.setIndet .d true
  | .setBitsHigh _ _ => s.setIndet .c true
  | _ => s

/-- The cache after a failed write of commands (R97). -/
def trackFails (cs : List Instr) (s : Ste) : Ste := cs.foldl trackFail s

/-- A failed write of these commands concerns group C: one of them sets or reads it (R147 (a)). -/
def writesC (cs : List Instr) : Bool :=
  cs.any fun
    | .setBitsHigh _ _ | .readBitsHigh => true
    | _ => false

/-- A failed write of these commands concerns group D: every write does but one for group C alone (R147 (a)). -/
def writesD (cs : List Instr) : Bool :=
  !writesC cs || cs.any fun
    | .setBitsLow _ _ => true
    | _ => false

/-- The cache after a successful write of samples: the last one (R97). -/
def trackSamples (bs : List Byte) (s : Ste) : Ste :=
  match bs.getLast? with
  | some b => { s with grpD := { s.grpD with val := b } }
  | none => s

/-! ### The acknowledge bit (R26, R127) -/

/-- The acknowledge bit of a response byte: bit 0, and 1 is NAK (R127). -/
def isNak (a : Byte) : Bool := a.getLsbD 0

/-! ### Claims (R20, R73, R134) -/

/-- Pin `i` of group `g` is claimed by a bus engine (R73). NO_CS is the connection's flag (R22). -/
def claimed (s : Ste) (g : GroupId) (i : Fin 8) : Bool :=
  match g with
  | .c => false
  | .d =>
    (s.usingSpi && (decide (i.val ≤ 2) || (decide (i.val = 3) && !(s.spi.map (·.nocs)).getD false)))
      || (s.usingI2c && decide (i.val ≤ 2))

/-! ### Error codes (R143) -/

/-- The number of an error code (R143). -/
def Err.code : Err → Nat
  | .notOpen => 1
  | .inUse => 2
  | .notSupported => 3
  | .notConnected => 4
  | .bitsNotMultiple8 => 5
  | .bitsUnsupported => 6
  | .freqTooLow => 7
  | .halfDuplex => 8
  | .modeUnknown => 9
  | .keepCs => 10
  | .emptyPacket => 11
  | .lenMismatch => 12
  | .clockTooLow => 13
  | .pullupUnsupported => 14
  | .addrRange => 15
  | .pinBusy => 16
  | .nak => 17
  | .transport _ => 18
  | .truncated => 19
  | .verifyFailed => 20

/-- The four classes of R143. -/
inductive ErrClass where
  | protocolViolation
  | busLevel
  | transport
  | modeVerification
  deriving DecidableEq, Repr

/-- The class of an error code (R143). -/
def Err.class : Err → ErrClass
  | .nak => .busLevel
  | .transport _ => .transport
  | .truncated => .transport
  | .verifyFailed => .modeVerification
  | .notOpen | .inUse | .notSupported | .notConnected | .bitsNotMultiple8 | .bitsUnsupported | .freqTooLow
  | .halfDuplex | .modeUnknown | .keepCs | .emptyPacket | .lenMismatch | .clockTooLow | .pullupUnsupported
  | .addrRange | .pinBusy => .protocolViolation

/-- A transport error: `E_TRANSPORT` or `E_TRUNCATED` (R147). -/
def Err.isTransport (e : Err) : Bool := decide (e.class = .transport)

/-- The error is raised before any event of the request (R143). -/
def Err.beforeIo (e : Err) : Bool := decide (e.class = .protocolViolation)

end Sys2Proof.Machine
end

