-- ==== Sys2Proof/Machine/Transport.lean ====
section
/-! DEFINITION. The transport handle (40_transport.md): chunked writes, polling reads, the cancellable read-all and
the drain, over the draws of `usbWrite`, `usbQueueStatus`, `usbRead` and `cancelled(ctx)` (R79). Answers outside R79's
bounds are cut to them. -/

namespace Sys2Proof.Machine

/-- The outcome of `write` (R80): the bytes accepted, success, and the payload of each `usbWrite`. -/
structure WrOut where
  n : Nat
  ok : Bool
  calls : List (List Byte)
  deriving DecidableEq, Repr

/-- The transfers of `len` bytes when each is accepted in full: slices of at most `xfer` bytes (R80). -/
def slices (xfer : Nat) : Nat → List Byte → List (List Byte)
  | _, [] => []
  | 0, _ :: _ => []
  | fuel + 1, b :: bs => (b :: bs).take xfer :: slices xfer fuel ((b :: bs).drop xfer)

/-- `write` (R80): one `usbWrite` per turn of its loop, on at most `XFER_MAX` bytes, from the first byte not yet
accepted. When the script ends, the rest is accepted in full. -/
def usbWriteAll (xfer : Nat) : List (Nat × Bool) → List Byte → WrOut
  | _, [] => ⟨0, true, []⟩
  | [], b :: bs => ⟨(b :: bs).length, true, slices xfer (b :: bs).length (b :: bs)⟩
  | (k, ok) :: as, b :: bs =>
    let m := min xfer (b :: bs).length
    let k := min k m
    if ok then
      let r := usbWriteAll xfer as ((b :: bs).drop k)
      ⟨k + r.n, r.ok, (b :: bs).take m :: r.calls⟩
    else ⟨k, false, [(b :: bs).take m]⟩

/-- `readAvailable` into a buffer of length `len` (R81): the bytes read, or `none` on a transport error. -/
def readAvailable (t : Turn) (len : Nat) : Option (List Byte) :=
  match t.status with
  | none => none
  | some p =>
    if min p len = 0 then some []
    else
      match t.data with
      | none => none
      | some bs => some (bs.take (min p len))

/-- The outcome of `readAll` (R82). -/
structure RdOut where
  got : List Byte
  status : RdStatus
  deriving DecidableEq, Repr

/-- `readAll` into a buffer with `want` bytes to go (R82). When the script ends, `tail` arrives, and the context is
cancelled if that does not fill the buffer. -/
def usbReadAll (ra : Nat) (tail : List Byte) : List Turn → Nat → RdOut
  | _, 0 => ⟨[], .ok⟩
  | [], want + 1 => ⟨tail.take (want + 1), if want + 1 ≤ tail.length then .ok else .truncated⟩
  | t :: ts, want + 1 =>
    if t.cancel then ⟨[], .truncated⟩
    else
      match readAvailable t (min ra (want + 1)) with
      | none => ⟨[], .failed⟩
      | some bs =>
        let r := usbReadAll ra tail ts (want + 1 - bs.length)
        ⟨bs ++ r.got, r.status⟩

/-- The outcome of `flush` (R83). -/
structure FlOut where
  dropped : List Byte
  ok : Bool
  deriving DecidableEq, Repr

/-- `flush` (R83): read until an answer of zero bytes. -/
def usbFlush (ra : Nat) : List Turn → FlOut
  | [] => ⟨[], true⟩
  | t :: ts =>
    match readAvailable t ra with
    | none => ⟨[], false⟩
    | some [] => ⟨[], true⟩
    | some (b :: bs) =>
      let r := usbFlush ra ts
      ⟨b :: bs ++ r.dropped, r.ok⟩

end Sys2Proof.Machine
end

