-- ==== Sys2Proof/Machine/Ops.lean ====
section
/-! DEFINITION. The operations every meaning is made of: what the bridge does with a command, a sample or a control
request; the four logical events of 40_transport.md R84; and how a request ends, in success or by raising an error
(60_exceptions.md R146, R147), which is the machine's only trap entry. -/

namespace Sys2Proof.Machine

/-! ### The bridge (R25) -/

/-- A free bridge state, with the parse position unknown (R46, U9, U12). Its divisor is one the bridge can hold (R64). -/
def Bridge.havoc (b : Bridge) : Bridge :=
  { Config.freeBridge b.fresh with
    aligned := false
    divisor := ((Config.freeBridge b.fresh).divisor - 1) % divMax + 1
    fresh := b.fresh + 1 }

/-- The bits a data-shift command shifts out, in wire order (R35, R60, R61). -/
def shiftOutBits (sel : ShiftSel) (n : Nat) (payload : List Byte) : List Bool :=
  if sel.out then
    if sel.bits then (payload.flatMap (shiftOrder sel.lsb)).take n else payload.flatMap (shiftOrder sel.lsb)
  else []

/-- The response bytes a data-shift command queues (R60, R61, R71). -/
def shiftResponses (sel : ShiftSel) (n : Nat) : List Resp :=
  if sel.inn then (if sel.bits then [.bits n] else List.replicate n .data) else []

/-- What an unrecognised opcode queues: the marker, then the opcode (R68). -/
def badCmdResponses (op : Byte) : List Resp := [.marker, .echo op]

/-- Queue response bytes at the bridge. -/
def Bridge.answer (b : Bridge) (rs : List Resp) : Bridge := { b with queue := b.queue ++ rs }

/-- What the bridge answers when it has read the byte `op` as an opcode (R68, R69): a probe, which is deliberately invalid,
queues the marker and itself, and an opcode of R69's list is recognised, so it queues no such answer. What any other byte
does, and whether the bridge recognises it, no source says (R69, U15): it is unmodelled, and leaves a free state. -/
def Bridge.badCmd (op : Byte) (b : Bridge) : Bridge :=
  if op = OPC.probe1 ∨ op = OPC.probe2 then b.answer (badCmdResponses op)
  else if isRecognised op then b
  else b.havoc

/-- What the bridge does with a data-shift command (R60, R61). An opcode outside R69's list is unmodelled in the
bridge, so it leaves a free state. -/
def Bridge.shift (b : Bridge) (sel : ShiftSel) (n : Nat) (payload : List Byte) : Bridge :=
  if emittedSels.contains sel then
    { b with wire := b.wire ++ shiftOutBits sel n payload, queue := b.queue ++ shiftResponses sel n }
  else b.havoc

/-- What the bridge does with a command that is no data shift (R62 to R68). A reserved opcode leaves a free state. -/
def Bridge.plain (b : Bridge) (i : Instr) : Bridge :=
  match i with
  | .setBitsLow val dir => { b with latchD := val, dirD := dir }
  | .readBitsLow => b.answer [.pins .d]
  | .setBitsHigh val dir => { b with latchC := val, dirC := dir }
  | .readBitsHigh => b.answer [.pins .c]
  | .setDivisor d => { b with divisor := d }
  | .sendImmediate => { b with sent := b.sent ++ b.queue, queue := [] }
  | .div5Off => { b with lowBase := false }
  | .div5On => { b with lowBase := true }
  | .clk3PhaseOn => { b with threePhase := true }
  | .clk3PhaseOff => { b with threePhase := false }
  | .driveZeroOnly maskD maskC => { b with odD := maskD, odC := maskC }
  | .probe1 => b.answer (badCmdResponses OPC.probe1)
  | .probe2 => b.answer (badCmdResponses OPC.probe2)
  | .reserved _ => b.havoc
  | .dataShift _ _ _ | .shiftBytesOut10 _ | .shiftBytesOut11 _ | .shiftBytesOut18 _ | .shiftBytesOut19 _
  | .shiftBytesIn _ | .shiftBytesInout31 _ | .shiftBytesInout34 _ | .shiftBytesInout39 _ | .shiftBytesInout3C _
  | .shiftBitsIn _ | .shiftBitsOut _ _ | .badCmd _ | .bbSample _ | .resetDevice | .init
  | .setBitmode _ _ | .setRate _ | .devOpen | .devClose | .spiConnect _ _ _ | .spiTx _ _ | .spiTxPackets _
  | .spiClose | .i2cOpen _ | .i2cSetSpeed _ | .i2cTx _ _ _ | .i2cClose | .gpioOut _ _ _ | .gpioIn _ _
  | .gpioRead _ _ | .spiHeader | .spiTrailer | .chunkCmd _ _ | .clockCmds _ _ | .probe _ | .i2cStart | .i2cStop
  | .i2cIdle | .i2cWb _ | .i2cRb _ | .bbFrame _ => b

/-- What the bridge does with one command (R60 to R68). -/
def Bridge.command (b : Bridge) (i : Instr) : Bridge :=
  match i.shift? with
  | some (sel, n, payload) => b.shift sel n payload
  | none => b.plain i

/-- The bridge's serial clock on CMD (R64, R89). -/
def Bridge.clock (p : Params) (b : Bridge) : Rat := clockActual p b.lowBase b.divisor

/-- The bridge takes the bytes it gets as commands, from a command boundary on (R46, R57). -/
abbrev Bridge.understands (mux : Mux) (b : Bridge) : Prop := mux = .cmdStream ∧ b.aligned = true

/-- What bytes leave that the bridge does not take as the commands they are (U9, U12): a free state. The sample rate is
no command's to change (R74), and the serial clock is free up to the clock of `goal`, the state the commands stand for,
because R21's bound of it is lost by no error but one in CLOCK_SELECT. After such an error R21 leaves the clock open. That
it is held to `goal` even then is the model's choice (assumption 9, DESIGN CHOICE). -/
def Bridge.garbled (p : Params) (b goal : Bridge) : Bridge :=
  if b.havoc.clock p ≤ goal.clock p then { b.havoc with rate := b.rate }
  else { b.havoc with rate := b.rate, lowBase := goal.lowBase, divisor := goal.divisor }

/-- What the bridge does with an accepted write of commands (R42 (d), R57): where it understands them, each in order. -/
def Bridge.feed (p : Params) (mux : Mux) (cs : List Instr) (b : Bridge) : Bridge :=
  if b.understands mux then cs.foldl Bridge.command b else b.garbled p (cs.foldl Bridge.command b)

/-- What a command that may have been done leaves: the field it sets is any value (U9, U12). -/
def Bridge.loosen (free b : Bridge) (i : Instr) : Bridge :=
  if i.shift?.isSome then { b with wire := free.wire }
  else
    match i with
    | .setDivisor _ => { b with divisor := free.divisor }
    | .div5Off | .div5On => { b with lowBase := free.lowBase }
    | .clk3PhaseOn | .clk3PhaseOff => { b with threePhase := free.threePhase }
    | .driveZeroOnly _ _ => { b with odD := free.odD, odC := free.odC }
    | _ => b

/-- What a write of commands leaves in the bridge when it fails (R46, R47, U9, U10, U12): the parse position is unknown, the
pins of the affected group and the pending responses are any value, and so is every field one of the commands sets. The
rest stays: the serial clock too, unless the write was to change it (R21). -/
def Bridge.broken (p : Params) (mux : Mux) (cs : List Instr) (b : Bridge) : Bridge :=
  let kept := cs.foldl (Bridge.loosen b.havoc) (if b.understands mux then b else b.garbled p b)
  { kept with
    aligned := false
    latchD := if writesD cs then b.havoc.latchD else kept.latchD
    dirD := if writesD cs then b.havoc.dirD else kept.dirD
    latchC := if writesC cs then b.havoc.latchC else kept.latchC
    dirC := if writesC cs then b.havoc.dirC else kept.dirC
    queue := b.havoc.queue
    sent := b.havoc.sent
    fresh := b.fresh + 1 }

/-- What samples leave in the bridge when their write fails, or when it is in no mode to take them (U9, U10): the pins and
the pending responses are any value. The sample rate stays (R119). -/
def Bridge.brokenSamples (b : Bridge) : Bridge :=
  { b with
    latchD := b.havoc.latchD
    dirD := b.havoc.dirD
    queue := b.havoc.queue
    sent := b.havoc.sent
    fresh := b.fresh + 1 }

/-- What the bridge does with a write of samples (R75, R76): it drives the last one, and returns one sample for each. -/
def Bridge.feedSamples (mux : Mux) (bs : List Byte) (b : Bridge) : Bridge :=
  if mux = .syncBb then
    { b with latchD := bs.getLast?.getD b.latchD, sent := b.sent ++ bs.map fun _ => Resp.sample }
  else b.brokenSamples

/-- `n` response bytes have been read: the oldest first (R42 (e), R43). -/
def Bridge.consume (n : Nat) (b : Bridge) : Bridge :=
  { b with sent := b.sent.drop n, queue := b.queue.drop (n - b.sent.length) }

/-- A drain has discarded `n` bytes; after a zero answer nothing is pending on the host side (R39, R83). In SYNC_BB mode that
is all there is, since samples return without SEND_IMMEDIATE (R76): the response stream is aligned again (R162). In
another mode what the bridge still holds stays queued there. -/
def Bridge.drained (mux : Mux) (n : Nat) (ok : Bool) (b : Bridge) : Bridge :=
  if ok then { b.consume n with sent := [], queue := if mux = .syncBb then [] else (b.consume n).queue } else b.consume n

/-- What a successful control request does in the bridge (R74). After a reset its queues are empty and the rest is
free. -/
def Bridge.control (q : CtrlReq) (b : Bridge) : Bridge :=
  match q with
  | .resetDevice => { b.havoc with queue := [], sent := [] }
  | .init => b
  | .setBitmode mask .syncBb => { b with dirD := mask }
  | .setBitmode _ .reset => b
  | .setBitmode _ .cmdStream => b
  | .setRate r => { b with rate := some r }

/-- What a failed control request leaves in the bridge: what the request was to change is any value, because no rule says
whether it took effect (U9, U12). -/
def Bridge.controlLost (q : CtrlReq) (b : Bridge) : Bridge :=
  match q with
  | .resetDevice => b.havoc
  | .init => b
  | .setBitmode _ _ =>
    { b with
      aligned := false
      latchD := b.havoc.latchD
      dirD := b.havoc.dirD
      latchC := b.havoc.latchC
      dirC := b.havoc.dirC
      fresh := b.fresh + 1 }
  | .setRate _ => { b with rate := b.havoc.rate, fresh := b.fresh + 1 }

/-- A transport error struck a request on group `g`'s pins: what they are is any value (R18, R147, U9). -/
def Bridge.lostPins (g : GroupId) (b : Bridge) : Bridge :=
  match g with
  | .d => { b with latchD := b.havoc.latchD, dirD := b.havoc.dirD, fresh := b.fresh + 1 }
  | .c => { b with latchC := b.havoc.latchC, dirC := b.havoc.dirC, fresh := b.fresh + 1 }

/-- The echo of both probes matched: the command stream and the response stream are aligned (R93, R162). -/
def Bridge.resync (b : Bridge) : Bridge := { b with aligned := true, queue := [], sent := [] }

/-! ### Requests in progress -/

/-- A request in progress: it goes on with a value, or it has raised an error (R10). Either way nothing done before is
undone (R148). -/
inductive Res (α : Type) where
  | ok (a : α) (s : State)
  | err (e : Err) (s : State)
  deriving DecidableEq, Repr

/-- Go on after a success; an error ends the request at once (R146). -/
def Res.bind {α β : Type} (x : Res α) (f : α → State → Res β) : Res β :=
  match x with
  | .ok a s => f a s
  | .err e s => .err e s

/-- Go on whatever happened: the errors a rule says are ignored (R94, R95). -/
def Res.ignore {α : Type} (x : Res α) : Res Unit :=
  match x with
  | .ok _ s => .ok () s
  | .err _ s => .ok () s

/-- The state a request in progress has reached. -/
def Res.state {α : Type} : Res α → State
  | .ok _ s => s
  | .err _ s => s

/-- Replace the STE state. -/
def State.withSte (s : State) (f : Ste → Ste) : State := { s with ste := f s.ste }

/-- Replace the bridge-side state. -/
def State.withBridge (s : State) (f : Bridge → Bridge) : State := { s with bridge := f s.bridge }

/-- Append an event to the trace (R10). -/
def State.log (s : State) (e : Event) : State := { s with trace := s.trace ++ [e] }

/-! ### Draws (R11) -/

/-- The draws of the next logical write. -/
def Env.nextWr (e : Env) : List (Nat × Bool) × Env :=
  match e.wr with
  | a :: as => (a, { e with wr := as })
  | [] => (Config.freeWr e.fresh, { e with fresh := e.fresh + 1 })

/-- The draws of the next logical read. -/
def Env.nextRd (e : Env) : RdScript × Env :=
  match e.rd with
  | a :: as => (a, { e with rd := as })
  | [] => (Config.freeRd e.fresh, { e with fresh := e.fresh + 1 })

/-- The draws of the next drain. -/
def Env.nextFlush (e : Env) : List Turn × Env :=
  match e.fl with
  | a :: as => (a, { e with fl := as })
  | [] => (Config.freeFlush e.fresh, { e with fresh := e.fresh + 1 })

/-- The draw of the next control request. -/
def Env.nextCtrl (e : Env) : Bool × Env :=
  match e.ctrl with
  | a :: as => (a, { e with ctrl := as })
  | [] => (Config.freeCtrl e.fresh, { e with fresh := e.fresh + 1 })

/-- The outcome the next logical write of `bs` will have. -/
def State.wrOut (s : State) (bs : List Byte) : WrOut := usbWriteAll s.cfg.xferMax s.env.nextWr.1 bs

/-- The outcome the next logical read of `n` bytes will have. -/
def State.rdOut (s : State) (n : Nat) : RdOut := usbReadAll s.cfg.raChunk s.env.nextRd.1.tail s.env.nextRd.1.turns n

/-- The outcome the next drain will have. -/
def State.flOut (s : State) : FlOut := usbFlush s.cfg.raChunk s.env.nextFlush.1

/-! ### The four logical events (R10, R84) -/

/-- The trace and the draws after a logical write of `bs`. -/
def State.wrote (s : State) (bs : List Byte) : State :=
  { s with env := s.env.nextWr.2, trace := s.trace ++ [.wr bs (s.wrOut bs).n (s.wrOut bs).ok] }

/-- `emit WR` of samples, on BB (R75, R84, R97). -/
def emitSamples (bs : List Byte) (s : State) : Res Unit :=
  if (s.wrOut bs).ok then
    .ok () (((s.wrote bs).withSte (trackSamples bs)).withBridge (Bridge.feedSamples s.ste.mux bs))
  else
    .err (.transport (.write (s.wrOut bs).n))
      (((s.wrote bs).withSte fun t => t.setIndet .d true).withBridge Bridge.brokenSamples)

/-- `emit WR` of commands (R84, R97). On BB every byte written is a sample (R75). -/
def emitCmds (cs : List Instr) (s : State) : Res Unit :=
  match s.cfg.chip with
  | .bb => emitSamples (encodeAll cs) s
  | .cmd =>
    if (s.wrOut (encodeAll cs)).ok then
      .ok () (((s.wrote (encodeAll cs)).withSte (trackSets cs)).withBridge (Bridge.feed s.cfg s.ste.mux cs))
    else
      .err (.transport (.write (s.wrOut (encodeAll cs)).n))
        (((s.wrote (encodeAll cs)).withSte (trackFails cs)).withBridge (Bridge.broken s.cfg s.ste.mux cs))

/-- The state after a logical read of `n` bytes: the bytes received have left the response stream. What a failed read leaves
of the pins is settled where its error is raised (`State.raise`, `finishOpen`). -/
def State.didRead (s : State) (n : Nat) : State :=
  { s with
    env := s.env.nextRd.2
    trace := s.trace ++ [.rd n (s.rdOut n).got (s.rdOut n).status]
    bridge := s.bridge.consume (s.rdOut n).got.length }

/-- `RD(n)` (R11, R84): exactly `n` bytes, or an error. -/
def rd (n : Nat) (s : State) : Res (List Byte) :=
  match (s.rdOut n).status with
  | .ok => .ok (s.rdOut n).got (s.didRead n)
  | .truncated => .err .truncated (s.didRead n)
  | .failed => .err (.transport .readAvailable) (s.didRead n)

/-- `emit FLUSH` (R83, R84). -/
def flush (s : State) : Res Unit :=
  let s' : State :=
    { s with
      env := s.env.nextFlush.2
      trace := s.trace ++ [.flush s.flOut.dropped s.flOut.ok]
      bridge := s.bridge.drained s.ste.mux s.flOut.dropped.length s.flOut.ok }
  if s.flOut.ok then .ok () s' else .err (.transport .readAvailable) s'

/-- What a successful control request does to `S` (R16, R74): the mux, and on BB the direction (R17, R19). -/
def ctrlSte (chip : Chip) (q : CtrlReq) (t : Ste) : Ste :=
  match q with
  | .resetDevice => { t with mux := .unknown }
  | .init => t
  | .setRate _ => t
  | .setBitmode _ .reset => { t with mux := .reset }
  | .setBitmode _ .cmdStream => { t with mux := .cmdStream }
  | .setBitmode mask .syncBb =>
    match chip with
    | .cmd => { t with mux := .syncBb }
    | .bb => { t with mux := .syncBb, bbdir := mask, grpD := { t.grpD with dir := mask } }

/-- `emit CTRL(q)` (R74, R84). -/
def ctrl (q : CtrlReq) (s : State) : Res Unit :=
  let s' : State := { s with env := s.env.nextCtrl.2, trace := s.trace ++ [.ctrl q s.env.nextCtrl.1] }
  if s.env.nextCtrl.1 then .ok () ((s'.withSte (ctrlSte s.cfg.chip q)).withBridge (Bridge.control q))
  else .err (.transport .control) (s'.withBridge (Bridge.controlLost q))

/-! ### Host buffers in a request (R29 (1)) -/

/-- The read buffer of packet `j` as it stands. -/
def State.buf (s : State) (j : Nat) : List Byte := s.bufs.getD j []

/-- Take a request's read buffers: their contents are the caller's (R52). -/
def State.loadBufs (s : State) (rs : List (List Byte)) : State := { s with bufs := rs }

/-- `MemWrite` into the read buffer of packet `j` (R10, R31). -/
def State.writeBuf (s : State) (j i : Nat) (v : List Byte) : State :=
  { s with bufs := s.bufs.set j (memWrite (s.buf j) i v) }

/-! ### The end of a request: success, or an error taken (R146) -/

/-- Append a result (R6). -/
def State.addResult (s : State) (r : Result) : State := { s with results := s.results ++ [r] }

/-- What a transport error in a request on group `g`'s pins leaves (R147 (a), U9): the group is indeterminate, and on CMD its
pins are any value, CS among them (R111, R167 (c)). On BB, R120 says a failed read leaves the pins of a burst idle, so they
stay. That so do those of every other write a failed read follows there is the model's choice (assumption 9). A failed write
or direction request has freed them already. -/
def State.struck (s : State) (g : GroupId) : State :=
  (s.withSte fun t => t.setIndet g true).withBridge fun b =>
    match s.cfg.chip with
    | .cmd => b.lostPins g
    | .bb => b

/-- Raising an error, the machine's trap entry (R146, R147): a transport error strikes the group's pins, and the result
carries the code. There is no vector and no saved program counter, and the STE is ready for the next request. -/
def State.raise (s : State) (g : GroupId) (e : Err) : State :=
  (if e.isTransport then s.struck g else s).addResult ⟨some e, .unit⟩

/-- The end of a request whose transport errors concern group `g` (R147 (a)). -/
def finish (g : GroupId) : Res Reply → State
  | .ok v s => s.addResult ⟨none, v⟩
  | .err e s => s.raise g e

/-- The end of `DEV_OPEN`, to which R147 (a) does not apply. The pins a failed read or drain of it leaves are the model's
choice (assumption 9). -/
def finishOpen : Res Unit → State
  | .ok () s => s.addResult ⟨none, .unit⟩
  | .err e s => s.addResult ⟨some e, .unit⟩

/-- A request's value, put in a reply. -/
def Res.reply {α : Type} (x : Res α) (f : α → State → Reply) : Res Reply := x.bind fun a s => .ok (f a s) s

/-- The first check of every request but `DEV_OPEN` and `DEV_CLOSE` (R15, R144). -/
def whenOpen (body : State → Res Reply) (s : State) : Res Reply :=
  if s.ste.dev = .opened then body s else .err .notOpen s

/-- A host request on group `g`'s pins (R12): it runs to completion or to its first error. -/
def request (g : GroupId) (body : State → Res Reply) (s : State) : Host.Outcome State Fault Refusal :=
  .next (finish g (whenOpen body s))

/-- One primitive run on the test bench (R50): a write of commands with its result. Run alone, CLOCK_CMDS is no
CLOCK_SELECT: whether its write succeeds or fails, `S.clk` stays as it was (assumption 12, DESIGN CHOICE). -/
def runCmds (g : GroupId) (cs : List Instr) (s : State) : Host.Outcome State Fault Refusal :=
  .next (finish g ((emitCmds cs s).reply fun _ _ => .unit))

/-- One command: emitted if the STE emits its opcode and its operands have an encoding (R69), else refused. -/
def runCommand (g : GroupId) (i : Instr) (s : State) : Host.Outcome State Fault Refusal :=
  if i.emittable then runCmds g [i] s else .refused .badOperand

/-- One control request on the test bench (R50, R74). Run alone, SET_RATE leaves `S.clk` as it was, whether it succeeds or
fails: R147 (b) speaks of a request (assumption 12, DESIGN CHOICE). -/
def runCtrl (q : CtrlReq) (s : State) : Host.Outcome State Fault Refusal :=
  .next (finish .d ((ctrl q s).reply fun _ _ => .unit))

end Sys2Proof.Machine
end

