-- ==== Sys2Proof/Machine/Command.lean ====
section
/-! DEFINITION. The commands of the command stream (30_encoding.md R58 to R69), the bridge's BAD_CMD answer (R68) and
the BB sample (R75). Run alone, a command is one logical write: the STE emits it and the bridge does it. -/

namespace Sys2Proof.Machine

/-- DATA_SHIFT (R58): a data shift of any selectors. The STE refuses to produce an opcode outside R69's list. -/
def execDataShift (sel : ShiftSel) (n : Nat) (payload : List Byte) (s : State) : Host.Outcome State Fault Refusal :=
  if emittedSels.contains sel then runCommand .d (.dataShift sel n payload) s
  else .refused (.reservedOpcode sel.opcode)

/-- SHIFT_BYTES_OUT 0x10 (R60). -/
def execShiftBytesOut10 (payload : List Byte) (s : State) : Host.Outcome State Fault Refusal :=
  runCommand .d (.shiftBytesOut10 payload) s

/-- SHIFT_BYTES_OUT 0x11 (R60). -/
def execShiftBytesOut11 (payload : List Byte) (s : State) : Host.Outcome State Fault Refusal :=
  runCommand .d (.shiftBytesOut11 payload) s

/-- SHIFT_BYTES_OUT 0x18 (R60). -/
def execShiftBytesOut18 (payload : List Byte) (s : State) : Host.Outcome State Fault Refusal :=
  runCommand .d (.shiftBytesOut18 payload) s

/-- SHIFT_BYTES_OUT 0x19 (R60). -/
def execShiftBytesOut19 (payload : List Byte) (s : State) : Host.Outcome State Fault Refusal :=
  runCommand .d (.shiftBytesOut19 payload) s

/-- SHIFT_BYTES_IN 0x20 (R60). -/
def execShiftBytesIn (n : Nat) (s : State) : Host.Outcome State Fault Refusal := runCommand .d (.shiftBytesIn n) s

/-- SHIFT_BYTES_INOUT 0x31 (R60). -/
def execShiftBytesInout31 (payload : List Byte) (s : State) : Host.Outcome State Fault Refusal :=
  runCommand .d (.shiftBytesInout31 payload) s

/-- SHIFT_BYTES_INOUT 0x34 (R60). -/
def execShiftBytesInout34 (payload : List Byte) (s : State) : Host.Outcome State Fault Refusal :=
  runCommand .d (.shiftBytesInout34 payload) s

/-- SHIFT_BYTES_INOUT 0x39 (R60). -/
def execShiftBytesInout39 (payload : List Byte) (s : State) : Host.Outcome State Fault Refusal :=
  runCommand .d (.shiftBytesInout39 payload) s

/-- SHIFT_BYTES_INOUT 0x3C (R60). -/
def execShiftBytesInout3C (payload : List Byte) (s : State) : Host.Outcome State Fault Refusal :=
  runCommand .d (.shiftBytesInout3C payload) s

/-- SHIFT_BITS_IN 0x22 (R61). -/
def execShiftBitsIn (nb : Nat) (s : State) : Host.Outcome State Fault Refusal := runCommand .d (.shiftBitsIn nb) s

/-- SHIFT_BITS_OUT 0x13 (R61). -/
def execShiftBitsOut (nb : Nat) (b : Byte) (s : State) : Host.Outcome State Fault Refusal :=
  runCommand .d (.shiftBitsOut nb b) s

/-- SET_BITS_LOW 0x80 (R62). -/
def execSetBitsLow (val dir : Byte) (s : State) : Host.Outcome State Fault Refusal :=
  runCommand .d (.setBitsLow val dir) s

/-- READ_BITS_LOW 0x81 (R63). -/
def execReadBitsLow (s : State) : Host.Outcome State Fault Refusal := runCommand .d .readBitsLow s

/-- SET_BITS_HIGH 0x82 (R62). -/
def execSetBitsHigh (val dir : Byte) (s : State) : Host.Outcome State Fault Refusal :=
  runCommand .c (.setBitsHigh val dir) s

/-- READ_BITS_HIGH 0x83 (R63). -/
def execReadBitsHigh (s : State) : Host.Outcome State Fault Refusal := runCommand .c .readBitsHigh s

/-- SET_DIVISOR 0x86 (R64). -/
def execSetDivisor (d : Nat) (s : State) : Host.Outcome State Fault Refusal := runCommand .d (.setDivisor d) s

/-- SEND_IMMEDIATE 0x87 (R67). -/
def execSendImmediate (s : State) : Host.Outcome State Fault Refusal := runCommand .d .sendImmediate s

/-- DIV5_OFF 0x8A (R64). -/
def execDiv5Off (s : State) : Host.Outcome State Fault Refusal := runCommand .d .div5Off s

/-- DIV5_ON 0x8B (R64). -/
def execDiv5On (s : State) : Host.Outcome State Fault Refusal := runCommand .d .div5On s

/-- CLK_3PHASE_ON 0x8C (R65). -/
def execClk3PhaseOn (s : State) : Host.Outcome State Fault Refusal := runCommand .d .clk3PhaseOn s

/-- CLK_3PHASE_OFF 0x8D (R65). -/
def execClk3PhaseOff (s : State) : Host.Outcome State Fault Refusal := runCommand .d .clk3PhaseOff s

/-- DRIVE_ZERO_ONLY 0x9E (R66). -/
def execDriveZeroOnly (maskD maskC : Byte) (s : State) : Host.Outcome State Fault Refusal :=
  runCommand .d (.driveZeroOnly maskD maskC) s

/-- PROBE1 0xAA (R68). -/
def execProbe1 (s : State) : Host.Outcome State Fault Refusal := runCommand .d .probe1 s

/-- PROBE2 0xAB (R68). -/
def execProbe2 (s : State) : Host.Outcome State Fault Refusal := runCommand .d .probe2 s

/-- RESERVED (R69): "A model of the STE refuses to produce such a command." -/
def execReserved (op : Byte) (_s : State) : Host.Outcome State Fault Refusal := .refused (.reservedOpcode op)

/-- BAD_CMD (R68, R69): the bridge, in CMD_STREAM mode, queues the marker and a probe it did not recognise. For a byte R69
does not list it is unmodelled, and its state is free. In another mode, or for an opcode it does recognise, there is no
such answer and nothing happens. It is the bridge's own step: the STE emits nothing and no request ends (assumption 15,
DESIGN CHOICE). -/
def execBadCmd (op : Byte) (s : State) : Host.Outcome State Fault Refusal :=
  if s.cfg.chip = .cmd ∧ s.ste.mux = .cmdStream then .next (s.withBridge (Bridge.badCmd op)) else .next s

/-- BB_SAMPLE (R75): one sample written, on BB. -/
def execBbSample (b : Byte) (s : State) : Host.Outcome State Fault Refusal :=
  match s.cfg.chip with
  | .bb => .next (finish .d ((emitSamples [b] s).reply fun _ _ => .unit))
  | .cmd => .refused .noSampleStream

end Sys2Proof.Machine
end

