-- ==== Sys2Proof/Machine/Composite.lean ====
section
/-! DEFINITION. The composite sequences of 30_encoding.md R78, run alone: each is one logical write of its expansion.
A composite that reads `S` needs an open device, because before DEV_OPEN the cache is unspecified (R27), and an SPI
composite needs the connection its values come from (R23). -/

namespace Sys2Proof.Machine

/-- A composite whose values come from `S`: without an open device, `E_NOT_OPEN` (R15, R27). -/
def composite (body : State → Res Unit) (s : State) : Host.Outcome State Fault Refusal :=
  request .d (fun s => (body s).reply fun _ _ => .unit) s

/-- A composite whose values come from `S.spi` (R23, R96): without a connection on an open device, `E_NOT_CONNECTED`. -/
def withSpi (body : SpiConn → State → Res Unit) : State → Host.Outcome State Fault Refusal :=
  composite fun s =>
    match s.ste.spi with
    | none => .err .notConnected s
    | some c => body c s

/-- A composite of a packet: an invalid one has the error R53 names. -/
def onValid (p : Packet) (body : State → Res Unit) (s : State) : Res Unit :=
  match packetError p with
  | some e => .err e s
  | none => body s

/-- SPI_HEADER (R104). -/
def execSpiHeader (s : State) : Host.Outcome State Fault Refusal :=
  withSpi (fun c s => emitCmds (spiHeaderSeq c s.ste.grpD) s) s

/-- SPI_TRAILER (R104): with NO_CS it is empty, and nothing is written (R107). -/
def execSpiTrailer (s : State) : Host.Outcome State Fault Refusal :=
  withSpi (fun c s => if c.nocs then .ok () s else emitCmds (spiTrailerSeq c s.ste.grpD) s) s

/-- CHUNK_CMD(k) of a packet (R106). A composite run alone has no check order in the spec: here it is R144's, that is the
device, the connection, the packet, and last the chunk, which is refused if the packet has it not (assumptions 14 and 27,
DESIGN CHOICE). -/
def execChunkCmd (p : Packet) (k : Nat) (s : State) : Host.Outcome State Fault Refusal :=
  if s.ste.dev = .opened ∧ s.ste.spi.isSome = true ∧ packetError p = none ∧ chunkCount s.cfg.pChunk p ≤ k then
    .refused .noSuchChunk
  else withSpi (fun c => onValid p fun s => emitCmds (chunkSeq c s.cfg.pChunk p p.r k) s) s

/-- CLOCK_CMDS(sel, d) (R91). Alone it leaves `S.clk` as it was (assumption 12, DESIGN CHOICE). -/
def execClockCmds (low : Bool) (d : Nat) (s : State) : Host.Outcome State Fault Refusal :=
  if 1 ≤ d ∧ d ≤ divMax then runCmds .d (clockSeq low d) s else .refused .badOperand

/-- PROBE(x) (R93): only the two probe opcodes of R68 are emitted (R69). -/
def execProbe (x : Byte) (s : State) : Host.Outcome State Fault Refusal :=
  match probeInstr x with
  | some i => runCmds .d [i, .sendImmediate] s
  | none => .refused (.reservedOpcode x)

/-- I2C_START (R126). -/
def execI2cStart (s : State) : Host.Outcome State Fault Refusal :=
  composite (fun s => emitCmds (i2cStartSeq s.cfg.k s.ste.grpD) s) s

/-- I2C_STOP (R126). -/
def execI2cStop (s : State) : Host.Outcome State Fault Refusal :=
  composite (fun s => emitCmds (i2cStopSeq s.cfg.k s.ste.grpD) s) s

/-- I2C_IDLE (R126). -/
def execI2cIdle (s : State) : Host.Outcome State Fault Refusal :=
  composite (fun s => emitCmds (i2cIdleSeq s.ste.grpD) s) s

/-- I2C_WB(b) (R127). -/
def execI2cWb (b : Byte) (s : State) : Host.Outcome State Fault Refusal :=
  composite (fun s => emitCmds (i2cWbSeq s.ste.grpD b) s) s

/-- I2C_RB(last) (R128). -/
def execI2cRb (last : Bool) (s : State) : Host.Outcome State Fault Refusal :=
  composite (fun s => emitCmds (i2cRbSeq s.ste.grpD last) s) s

/-- BB_FRAME of a packet (R116): one write of samples, on BB. A composite run alone has no check order in the spec: here
it is R144's, the device, the connection and then the packet (assumption 14, DESIGN CHOICE); on CMD it is refused before
all of them (assumption 13). -/
def execBbFrame (p : Packet) (s : State) : Host.Outcome State Fault Refusal :=
  match s.cfg.chip with
  | .cmd => .refused .noSampleStream
  | .bb => withSpi (fun c => onValid p fun s => emitSamples (bbFrameOf c s.ste.grpD p) s) s

end Sys2Proof.Machine
end

