-- ==== Sys2Proof/Machine/Control.lean ====
section
/-! DEFINITION. The control requests (30_encoding.md R74), run alone. -/

namespace Sys2Proof.Machine

/-- RESET_DEVICE (R74). -/
def execResetDevice (s : State) : Host.Outcome State Fault Refusal := runCtrl .resetDevice s

/-- INIT (R74). -/
def execInit (s : State) : Host.Outcome State Fault Refusal := runCtrl .init s

/-- SET_BITMODE (R74): "In other modes `mask` is 0x00", so outside SYNC_BB any other mask is refused. -/
def execSetBitmode (mask : Byte) (mode : BitMode) (s : State) : Host.Outcome State Fault Refusal :=
  if mode = .syncBb ∨ mask = 0 then runCtrl (.setBitmode mask mode) s else .refused .badOperand

/-- SET_RATE (R74): "It is issued only in SYNC_BB", so it is refused in any other mode. -/
def execSetRate (r : Nat) (s : State) : Host.Outcome State Fault Refusal :=
  if s.ste.mux = .syncBb then runCtrl (.setRate r) s else .refused .noSampleStream

end Sys2Proof.Machine
end

