-- ==== Sys2Proof/Machine/Engine.lean ====
section
/-! DEFINITION. The serial engine driver (41_engine.md): clock selection, mode verification, device open with its one
retry, and the group primitives; and device close (45_facade.md R136). -/

namespace Sys2Proof.Machine

/-- `CLOCK_SELECT(f)` (R89): the actual rate. A failed write leaves `S.clk` NONE (R21). -/
def clockSelect (f : Rat) (s : State) : Res Rat :=
  match clockPlan s.cfg f with
  | none => .err .clockTooLow s
  | some (low, d) =>
    match emitCmds (clockSeq low d) s with
    | .ok () s => .ok (clockActual s.cfg low d) (s.withSte fun t => { t with clk := some f })
    | .err e s => .err e (s.withSte fun t => { t with clk := none })

/-- A connect reprograms the clock only downward (R92). -/
def needsClock (clk : Option Rat) (f : Nat) : Bool :=
  match clk with
  | none => true
  | some c => decide (hz f < c)

/-- One probe of `VERIFY_MODE` (R93): `PROBE(x)`, and the echo expected is `[0xFA, x]`. -/
def verifyProbe (i : Instr) (x : Byte) (s : State) : Res Unit :=
  (emitCmds [i, .sendImmediate] s).bind fun _ s =>
  (rd 2 s).bind fun r s => if r = [OPC.badCmd, x] then .ok () s else .err .verifyFailed s

/-- `VERIFY_MODE()` (R93). -/
def verifyMode (s : State) : Res Unit :=
  (verifyProbe .probe1 OPC.probe1 s).bind fun _ s =>
  (verifyProbe .probe2 OPC.probe2 s).bind fun _ s => .ok () (s.withBridge Bridge.resync)

/-- What the second attempt does before the fast path (R94): the drain's errors are ignored. -/
def resetAttempt (s : State) : Res Unit := (ctrl .resetDevice s).bind fun _ s => (flush s).ignore

/-- The fast path: init, mode reset, mode set, drain, verify (R94). -/
def fastPath (s : State) : Res Unit :=
  (ctrl .init s).bind fun _ s =>
  (ctrl (.setBitmode 0 .reset) s).bind fun _ s =>
  (ctrl (.setBitmode 0 .cmdStream) s).bind fun _ s =>
  (flush s).bind fun _ s => verifyMode s

/-- `ATTEMPT(first)` (R94). -/
def attempt (first : Bool) (s : State) : Res Unit :=
  if first then fastPath s else (resetAttempt s).bind fun _ s => fastPath s

/-- A final open error (R94, R150). -/
def Ste.openFailed (t : Ste) : Ste := { t with dev := .failed, mux := .unknown }

/-- The fields a successful open writes, but for the mux (R27, R94, R95). Group C and `bbdir` are written where they
exist. -/
def Ste.openDone (chip : Chip) (t : Ste) : Ste :=
  match chip with
  | .cmd =>
    { t with dev := .opened, grpD := ⟨0, 0, false⟩, grpC := ⟨0, 0, false⟩, usingSpi := false, usingI2c := false,
             clk := none, spi := none, i2c := none }
  | .bb =>
    { t with dev := .opened, grpD := ⟨0, 0, false⟩, bbdir := 0, usingSpi := false, usingI2c := false,
             clk := none, spi := none, i2c := none }

/-- The end of an attempt that failed for good. -/
def Res.orFailed {α : Type} (x : Res α) : Res α :=
  match x with
  | .ok a s => .ok a s
  | .err e s => .err e (s.withSte Ste.openFailed)

/-- The final write and the fields of a successful `DEV_OPEN` on CMD (R94). -/
def openFinal (s : State) : Res Unit :=
  (emitCmds openFinalSeq s).bind fun _ s => .ok () (s.withSte (Ste.openDone .cmd))

/-- `DEV_OPEN` on CMD after its check: at most two attempts (R94). -/
def openCmd (s : State) : Res Unit :=
  match attempt true s with
  | .ok () s => (openFinal s).orFailed
  | .err _ s => ((attempt false s).bind fun _ s => openFinal s).orFailed

/-- `DEV_OPEN` on BB after its check (R95). The sample rate is unprogrammed after it (R161). -/
def openBb (s : State) : Res Unit :=
  ((ctrl .init s).bind fun _ s =>
   (ctrl (.setBitmode 0 .reset) s).bind fun _ s =>
   (ctrl (.setBitmode 0 .syncBb) s).bind fun _ s =>
   (flush s).ignore.bind fun _ s =>
     .ok () ((s.withSte (Ste.openDone .bb)).withBridge fun b => { b with rate := none })).orFailed

/-- `DEV_OPEN` (R94, R95): the only check is that the device is not open (R144). -/
def devOpen (s : State) : Res Unit :=
  if s.ste.dev = .opened then .err .inUse s
  else
    match s.cfg.chip with
    | .cmd => openCmd s
    | .bb => openBb s

/-- DEV_OPEN (R94, R95). -/
def execDevOpen (s : State) : Host.Outcome State Fault Refusal := .next (finishOpen (devOpen s))

/-- `DEV_CLOSE` (R136): `S` takes its reset values, and nothing is emitted. -/
def devClose (s : State) : Res Reply :=
  if s.ste.dev = .closed then .err .notOpen s else .ok .unit (s.withSte fun _ => Ste.reset)

/-- DEV_CLOSE (R136). -/
def execDevClose (s : State) : Host.Outcome State Fault Refusal := .next (finish .d (devClose s))

/-- The direction of group D on BB, where it differs (R98, R114). -/
def bbDirection (dir : Byte) (s : State) : Res Unit :=
  if dir ≠ s.ste.bbdir then ctrl (.setBitmode dir .syncBb) s else .ok () s

/-- A group set of group D on BB: direction, one sample, one returned sample (R98, R114). Once it has succeeded, the
group is no longer indeterminate (R18). -/
def bbGroupSet (val dir : Byte) (s : State) : Res Unit :=
  (bbDirection dir s).bind fun _ s =>
  (emitSamples [val] s).bind fun _ s =>
  (rd 1 s).bind fun _ s => .ok () (s.withSte fun t => t.setIndet .d false)

/-- `GROUP_SET(g, val, dir)` (R98). -/
def groupSet (g : GroupId) (val dir : Byte) (s : State) : Res Unit :=
  match s.cfg.chip with
  | .cmd =>
    match g with
    | .d => emitCmds [.setBitsLow val dir] s
    | .c => emitCmds [.setBitsHigh val dir] s
  | .bb => bbGroupSet val dir s

/-- `GROUP_READ(g)` (R99). -/
def groupRead (g : GroupId) (s : State) : Res Byte :=
  let written : Res Unit :=
    match s.cfg.chip with
    | .cmd =>
      match g with
      | .d => emitCmds [.readBitsLow, .sendImmediate] s
      | .c => emitCmds [.readBitsHigh, .sendImmediate] s
    | .bb => emitSamples [s.ste.grpD.val] s
  written.bind fun _ s => (rd 1 s).bind fun r s => .ok (r.headD 0) s

end Sys2Proof.Machine
end

