-- ==== Sys2Proof/Machine/Facade.lean ====
section
/-! DEFINITION. The GPIO pin requests of the device facade (45_facade.md R137 to R141). -/

namespace Sys2Proof.Machine

/-- The mask of pin `i`. -/
def pinMask (i : Fin 8) : Byte := 1 <<< i.val

/-- `PIN_CHECK(g, i)` after the check that the device is open (R138). -/
def pinCheck (p : Params) (t : Ste) (g : GroupId) (i : Fin 8) : Option Err :=
  if p.chip = .bb ∧ g = .c then some .notSupported else if claimed t g i then some .pinBusy else none

/-- A pin request after its checks (R138). -/
def onPin (g : GroupId) (i : Fin 8) (body : State → Res Reply) (s : State) : Res Reply :=
  match pinCheck s.cfg s.ste g i with
  | some e => .err e s
  | none => body s

/-- The value mask `GPIO_OUT` sets (R139). -/
def gpioVal (old : Byte) (i : Fin 8) (level : Bool) : Byte :=
  if level then old ||| pinMask i else old &&& ~~~(pinMask i)

/-- `GPIO_OUT(g, i, level)` (R139). -/
def gpioOut (g : GroupId) (i : Fin 8) (level : Bool) (s : State) : Res Reply :=
  (groupSet g (gpioVal (s.ste.grp g).val i level) ((s.ste.grp g).dir ||| pinMask i) s).reply fun _ _ => .unit

/-- GPIO_OUT (R139). -/
def execGpioOut (g : GroupId) (i : Fin 8) (level : Bool) (s : State) : Host.Outcome State Fault Refusal :=
  request g (onPin g i (gpioOut g i level)) s

/-- `GPIO_IN(g, i)` (R140). -/
def gpioIn (g : GroupId) (i : Fin 8) (s : State) : Res Reply :=
  (groupSet g (s.ste.grp g).val ((s.ste.grp g).dir &&& ~~~(pinMask i)) s).reply fun _ _ => .unit

/-- GPIO_IN (R140). -/
def execGpioIn (g : GroupId) (i : Fin 8) (s : State) : Host.Outcome State Fault Refusal :=
  request g (onPin g i (gpioIn g i)) s

/-- `GPIO_READ(g, i)` (R141). -/
def gpioRead (g : GroupId) (i : Fin 8) (s : State) : Res Reply :=
  (groupRead g s).reply fun x _ => .level (x.getLsbD i.val)

/-- GPIO_READ (R141). -/
def execGpioRead (g : GroupId) (i : Fin 8) (s : State) : Host.Outcome State Fault Refusal :=
  request g (onPin g i (gpioRead g i)) s

end Sys2Proof.Machine
end

