-- ==== Sys2Proof/Machine/I2c.lean ====
section
/-! DEFINITION. The I²C transaction encoder (44_i2c.md): open, speed, close and the transaction. -/

namespace Sys2Proof.Machine

/-- The I²C engine is on CMD only (R96). -/
def onCmd (body : State → Res Reply) (s : State) : Res Reply :=
  match s.cfg.chip with
  | .cmd => body s
  | .bb => .err .notSupported s

/-- The requests that need an open I²C bus (R96). -/
def withI2c (body : I2cBus → State → Res Reply) (s : State) : Res Reply :=
  match s.ste.i2c with
  | none => .err .notConnected s
  | some b => body b s

/-- `I2C_OPEN(pull)` after the `CHIP` check (R123). -/
def i2cOpen (pull : Pull) (s : State) : Res Reply :=
  match pull with
  | .pullup => .err .pullupUnsupported s
  | .float =>
    if s.ste.usingSpi || s.ste.usingI2c then .err .inUse s
    else
      (clockSelect (i2cTarget s.cfg.i2cRate) s).bind fun _ s =>
      (emitCmds (i2cOpenSeq s.ste.grpD) s).bind fun _ s =>
        .ok .unit (s.withSte fun t => { t with i2c := some ⟨s.cfg.i2cRate⟩, usingI2c := true })

/-- I2C_OPEN (R123). -/
def execI2cOpen (pull : Pull) (s : State) : Host.Outcome State Fault Refusal := request .d (onCmd (i2cOpen pull)) s

/-- `I2C_SET_SPEED(r)` on an open bus (R124). -/
def i2cSetSpeed (rate : Nat) (s : State) : Res Reply :=
  (clockSelect (i2cTarget rate) s).bind fun _ s => .ok .unit (s.withSte fun t => { t with i2c := some ⟨rate⟩ })

/-- I2C_SET_SPEED (R124). -/
def execI2cSetSpeed (rate : Nat) (s : State) : Host.Outcome State Fault Refusal :=
  request .d (onCmd (withI2c fun _ => i2cSetSpeed rate)) s

/-- `I2C_CLOSE()` on an open bus (R125): the claim is released before the write. -/
def i2cClose (s : State) : Res Reply :=
  (emitCmds i2cCloseSeq (s.withSte fun t => { t with i2c := none, usingI2c := false })).reply fun _ _ => .unit

/-- I2C_CLOSE (R125). -/
def execI2cClose (s : State) : Host.Outcome State Fault Refusal :=
  request .d (onCmd (withI2c fun _ => i2cClose)) s

/-- `WR(I2C_STOP ++ I2C_IDLE)` (R126, R129). -/
def i2cStopIdle (s : State) : Res Unit := emitCmds (i2cStopSeq s.cfg.k s.ste.grpD ++ i2cIdleSeq s.ste.grpD) s

/-- One write byte with its acknowledge check (R127, R129): on a NAK the bus is released before the error is raised. -/
def i2cWriteByte (b : Byte) (s : State) : Res Unit :=
  (emitCmds (i2cWbSeq s.ste.grpD b) s).bind fun _ s =>
  (rd 1 s).bind fun a s =>
    if isNak (a.headD 0) then (i2cStopIdle s).bind fun _ s => .err .nak s else .ok () s

/-- The address and the write bytes, in order (R129). -/
def i2cWriteBytes : List Byte → State → Res Unit
  | [], s => .ok () s
  | b :: bs, s => (i2cWriteByte b s).bind fun _ s => i2cWriteBytes bs s

/-- The read bytes from index `j`, `count` of them to go: ACK for every byte except the last (R128, R129). -/
def i2cReadBytes : Nat → Nat → State → Res Unit
  | 0, _, s => .ok () s
  | count + 1, j, s =>
    (emitCmds (i2cRbSeq s.ste.grpD (decide (count = 0))) s).bind fun _ s =>
    (rd 1 s).bind fun x s => i2cReadBytes count (j + 1) (s.writeBuf 0 j x)

/-- `I2C_TX(addr, w, r)` on an open bus (R129), where `len` is the length of `r`. -/
def i2cTx (addr : Nat) (w : List Byte) (len : Nat) (s : State) : Res Reply :=
  if 0xFF < addr then .err .addrRange s
  else
    (emitCmds (i2cStartSeq s.cfg.k s.ste.grpD) s).bind fun _ s =>
    (i2cWriteBytes (BitVec.ofNat 8 addr :: w) s).bind fun _ s =>
    (i2cReadBytes len 0 s).bind fun _ s =>
    (i2cStopIdle s).bind fun _ s => .ok (.bytes (s.buf 0)) s

/-- I2C_TX (R129). -/
def execI2cTx (addr : Nat) (w r : List Byte) (s : State) : Host.Outcome State Fault Refusal :=
  request .d (onCmd (withI2c fun _ => i2cTx addr w r.length)) (s.loadBufs [r])

end Sys2Proof.Machine
end

