-- ==== Sys2Proof/Machine/Spi.lean ====
section
/-! DEFINITION. The SPI transaction encoder: connect, packet transfer and close, command-stream variant
(42_spi_mpsse.md) and bit-bang variant (43_spi_bitbang.md). -/

namespace Sys2Proof.Machine

/-! ### Connect (R100, R114) -/

/-- The SPI ceiling of the personality (R7, R100, R114). -/
def spiCeiling (p : Params) : Nat :=
  match p.chip with
  | .cmd => p.fMaxCmd
  | .bb => p.fMaxBb

/-- The checks of `SPI_CONNECT`, none of which does I/O: the connection it would make (R100, R114, R144). -/
def spiCheck (p : Params) (t : Ste) (f mode bits : Nat) : Except Err SpiConn :=
  match checkBits bits with
  | some e => .error e
  | none =>
    let f := min f (spiCeiling p)
    if f < p.fMin then .error .freqTooLow
    else
      match decomposeMode mode with
      | .error e => .error e
      | .ok m =>
        if t.usingI2c then .error .inUse
        else .ok { cpha := m.cpha, cpol := m.cpol, nocs := m.nocs, lsbf := m.lsbf, freq := f }

/-- Mark the engine as claimed, the last action of a connect (R20, R100). -/
def Ste.claimSpi (c : SpiConn) (t : Ste) : Ste := { t with spi := some c, usingSpi := true }

/-- The clock step of a connect on CMD (R92, R100). -/
def connectClock (c : SpiConn) (s : State) : Res Unit :=
  if needsClock s.ste.clk c.freq then (clockSelect (hz c.freq) s).bind fun _ s => .ok () s else .ok () s

/-- The clock step of a connect on BB: two samples per bit (R114). A failed one leaves `S.clk` NONE (R147 (b)). -/
def connectRate (c : SpiConn) (s : State) : Res Unit :=
  if needsClock s.ste.clk c.freq then
    match ctrl (.setRate (2 * c.freq)) s with
    | .ok () s => .ok () (s.withSte fun t => { t with clk := some (hz c.freq) })
    | .err e s => .err e (s.withSte fun t => { t with clk := none })
  else .ok () s

/-- The I/O of `SPI_CONNECT` (R100, R114). -/
def connectIo (c : SpiConn) (s : State) : Res Unit :=
  match s.cfg.chip with
  | .cmd => (connectClock c s).bind fun _ s => emitCmds (connectSeq c s.ste.grpD) s
  | .bb => (connectRate c s).bind fun _ s => bbGroupSet (spiIdle c s.ste.grpD) (spiDir c s.ste.grpD) s

/-- `SPI_CONNECT(f, mode, bits)` (R100, R114). -/
def spiConnect (f mode bits : Nat) (s : State) : Res Reply :=
  match spiCheck s.cfg s.ste f mode bits with
  | .error e => .err e s
  | .ok c => (connectIo c s).bind fun _ s => .ok .unit (s.withSte (Ste.claimSpi c))

/-- SPI_CONNECT (R100, R114). -/
def execSpiConnect (f mode bits : Nat) (s : State) : Host.Outcome State Fault Refusal :=
  request .d (spiConnect f mode bits) s

/-! ### Transfer on CMD (R103 to R111) -/

/-- `WR(CHUNK_CMD(k))` of packet `j`, after `head` (R106, R107): the bytes of a read-only packet are read from its
buffer at this moment. -/
def emitChunk (c : SpiConn) (p : Packet) (j k : Nat) (head : List Instr) (s : State) : Res Unit :=
  emitCmds (head ++ chunkSeq c s.cfg.pChunk p (s.buf j) k) s

/-- `RD(m_k)` and `MemWrite` of chunk `k` of packet `j`, if the packet reads (R107). -/
def readChunk (p : Packet) (j k : Nat) (s : State) : Res Unit :=
  if hasR p then
    (rd (chunkLen s.cfg.pChunk p k) s).bind fun x s => .ok () (s.writeBuf j (k * s.cfg.pChunk) x)
  else .ok () s

/-- Chunks `k` to `k + count - 1`: the write of each chunk, then the read of the one before it (R107, R108). -/
def txChunks (c : SpiConn) (p : Packet) (j : Nat) : Nat → Nat → State → Res Unit
  | 0, _, s => .ok () s
  | count + 1, k, s =>
    (emitChunk c p j k [] s).bind fun _ s =>
    (readChunk p j (k - 1) s).bind fun _ s => txChunks c p j count (k + 1) s

/-- `WR(SPI_TRAILER)`, if it is not empty (R104, R107). -/
def emitTrailer (c : SpiConn) (s : State) : Res Unit :=
  match spiTrailerSeq c s.ste.grpD with
  | [] => .ok () s
  | seq => emitCmds seq s

/-- `TX_PACKET(p)`, the pipelined schedule (R107), for packet `j` of the list. -/
def txPacket (c : SpiConn) (p : Packet) (j : Nat) (s : State) : Res Unit :=
  let m := chunkCount s.cfg.pChunk p
  (emitChunk c p j 0 (spiHeaderSeq c s.ste.grpD) s).bind fun _ s =>
  (txChunks c p j (m - 1) 1 s).bind fun _ s =>
  (readChunk p j (m - 1) s).bind fun _ s => emitTrailer c s

/-! ### Transfer on BB (R115 to R120) -/

/-- One packet as one burst: write the frame, read as many samples, decimate if the packet reads (R115). -/
def bbPacket (c : SpiConn) (p : Packet) (j : Nat) (s : State) : Res Unit :=
  let frame := bbFrameOf c s.ste.grpD p
  (emitSamples frame s).bind fun _ s =>
  (rd frame.length s).bind fun resp s =>
    .ok () (if hasR p then s.writeBuf j 0 (bbDecimAll c s.cfg.syncLag resp (packetLen p)) else s)

/-! ### The requests -/

/-- One packet on the bridge's personality (R103, R115). -/
def sendPacket (c : SpiConn) (p : Packet) (j : Nat) (s : State) : Res Unit :=
  match s.cfg.chip with
  | .cmd => txPacket c p j s
  | .bb => bbPacket c p j s

/-- The packets of a list, in order, from index `j` (R103, R115). -/
def sendPackets (c : SpiConn) : Nat → List Packet → State → Res Unit
  | _, [], s => .ok () s
  | j, p :: ps, s => (sendPacket c p j s).bind fun _ s => sendPackets c (j + 1) ps s

/-- `SPI_TXPACKETS(pkts)` (R103, R115): every packet is validated before any I/O. -/
def spiTxPackets (pkts : List Packet) (s : State) : Res Unit :=
  match s.ste.spi with
  | none => .err .notConnected s
  | some c =>
    match packetsError pkts with
    | some e => .err e s
    | none => sendPackets c 0 pkts s

/-- SPI_TXPACKETS (R103, R115): it returns the packets' read buffers. -/
def execSpiTxPackets (pkts : List Packet) (s : State) : Host.Outcome State Fault Refusal :=
  request .d (fun s => (spiTxPackets pkts s).reply fun _ s => .bufs s.bufs) (s.loadBufs (pkts.map (·.r)))

/-- SPI_TX (R54, R112): the one-packet list, returning its read buffer. -/
def execSpiTx (w r : List Byte) (s : State) : Host.Outcome State Fault Refusal :=
  request .d (fun s => (spiTxPackets [txPacketOf w r] s).reply fun _ s => .bytes (s.buf 0)) (s.loadBufs [r])

/-- `SPI_CLOSE()` (R113): no events. -/
def spiClose (s : State) : Res Reply :=
  match s.ste.spi with
  | none => .err .notConnected s
  | some _ => .ok .unit (s.withSte fun t => { t with spi := none, usingSpi := false })

/-- SPI_CLOSE (R113). -/
def execSpiClose (s : State) : Host.Outcome State Fault Refusal := request .d spiClose s

end Sys2Proof.Machine
end

