-- ==== Sys2Proof/Machine/Dispatch.lean ====
section
/-! DEFINITION. The meaning of every instruction: one arm for each row of spec/opcode_table.json. -/

namespace Sys2Proof.Machine

/-- One instruction. -/
def exec (i : Instr) (s : State) : Host.Outcome State Fault Refusal :=
  match i with
  | .dataShift sel n payload => Sys2Proof.Machine.execDataShift sel n payload s
  | .shiftBytesOut10 payload => Sys2Proof.Machine.execShiftBytesOut10 payload s
  | .shiftBytesOut11 payload => Sys2Proof.Machine.execShiftBytesOut11 payload s
  | .shiftBytesOut18 payload => Sys2Proof.Machine.execShiftBytesOut18 payload s
  | .shiftBytesOut19 payload => Sys2Proof.Machine.execShiftBytesOut19 payload s
  | .shiftBytesIn n => Sys2Proof.Machine.execShiftBytesIn n s
  | .shiftBytesInout31 payload => Sys2Proof.Machine.execShiftBytesInout31 payload s
  | .shiftBytesInout34 payload => Sys2Proof.Machine.execShiftBytesInout34 payload s
  | .shiftBytesInout39 payload => Sys2Proof.Machine.execShiftBytesInout39 payload s
  | .shiftBytesInout3C payload => Sys2Proof.Machine.execShiftBytesInout3C payload s
  | .shiftBitsIn nb => Sys2Proof.Machine.execShiftBitsIn nb s
  | .shiftBitsOut nb b => Sys2Proof.Machine.execShiftBitsOut nb b s
  | .setBitsLow val dir => Sys2Proof.Machine.execSetBitsLow val dir s
  | .readBitsLow => Sys2Proof.Machine.execReadBitsLow s
  | .setBitsHigh val dir => Sys2Proof.Machine.execSetBitsHigh val dir s
  | .readBitsHigh => Sys2Proof.Machine.execReadBitsHigh s
  | .setDivisor d => Sys2Proof.Machine.execSetDivisor d s
  | .sendImmediate => Sys2Proof.Machine.execSendImmediate s
  | .div5Off => Sys2Proof.Machine.execDiv5Off s
  | .div5On => Sys2Proof.Machine.execDiv5On s
  | .clk3PhaseOn => Sys2Proof.Machine.execClk3PhaseOn s
  | .clk3PhaseOff => Sys2Proof.Machine.execClk3PhaseOff s
  | .driveZeroOnly maskD maskC => Sys2Proof.Machine.execDriveZeroOnly maskD maskC s
  | .probe1 => Sys2Proof.Machine.execProbe1 s
  | .probe2 => Sys2Proof.Machine.execProbe2 s
  | .reserved op => Sys2Proof.Machine.execReserved op s
  | .badCmd op => Sys2Proof.Machine.execBadCmd op s
  | .bbSample b => Sys2Proof.Machine.execBbSample b s
  | .resetDevice => Sys2Proof.Machine.execResetDevice s
  | .init => Sys2Proof.Machine.execInit s
  | .setBitmode mask mode => Sys2Proof.Machine.execSetBitmode mask mode s
  | .setRate r => Sys2Proof.Machine.execSetRate r s
  | .devOpen => Sys2Proof.Machine.execDevOpen s
  | .devClose => Sys2Proof.Machine.execDevClose s
  | .spiConnect f mode bits => Sys2Proof.Machine.execSpiConnect f mode bits s
  | .spiTx w r => Sys2Proof.Machine.execSpiTx w r s
  | .spiTxPackets pkts => Sys2Proof.Machine.execSpiTxPackets pkts s
  | .spiClose => Sys2Proof.Machine.execSpiClose s
  | .i2cOpen pull => Sys2Proof.Machine.execI2cOpen pull s
  | .i2cSetSpeed rate => Sys2Proof.Machine.execI2cSetSpeed rate s
  | .i2cTx addr w r => Sys2Proof.Machine.execI2cTx addr w r s
  | .i2cClose => Sys2Proof.Machine.execI2cClose s
  | .gpioOut g n level => Sys2Proof.Machine.execGpioOut g n level s
  | .gpioIn g n => Sys2Proof.Machine.execGpioIn g n s
  | .gpioRead g n => Sys2Proof.Machine.execGpioRead g n s
  | .spiHeader => Sys2Proof.Machine.execSpiHeader s
  | .spiTrailer => Sys2Proof.Machine.execSpiTrailer s
  | .chunkCmd p k => Sys2Proof.Machine.execChunkCmd p k s
  | .clockCmds low d => Sys2Proof.Machine.execClockCmds low d s
  | .probe x => Sys2Proof.Machine.execProbe x s
  | .i2cStart => Sys2Proof.Machine.execI2cStart s
  | .i2cStop => Sys2Proof.Machine.execI2cStop s
  | .i2cIdle => Sys2Proof.Machine.execI2cIdle s
  | .i2cWb b => Sys2Proof.Machine.execI2cWb b s
  | .i2cRb last => Sys2Proof.Machine.execI2cRb last s
  | .bbFrame p => Sys2Proof.Machine.execBbFrame p s

end Sys2Proof.Machine
end

