-- ==== Sys2Proof/Machine/Fetch.lean ====
section
/-! DEFINITION. Where the next instruction comes from: the test bench (R50), whose bytes are decoded by the stream they
belong to (R57, R68, R75), and then the host's requests in the order they hold the lock (R42 (a), R142). -/

namespace Sys2Proof.Machine

/-- What a step finds to run. -/
inductive Fetched where
  | idle
  | instr (i : Instr) (s : State)
  | stop (r : Refusal)
  deriving DecidableEq, Repr

/-- Decode bytes the STE writes: commands on CMD, samples on BB (R57, R75). -/
def decodeFor (chip : Chip) (bs : List Byte) : Decoded :=
  match chip with
  | .cmd => decode bs
  | .bb => decodeSample bs

/-- Put the bytes after an instruction back on the bench. -/
def putBack (f : List Byte → Bench) (rest : List Byte) (bench : List Bench) : List Bench :=
  match rest with
  | [] => bench
  | b :: bs => f (b :: bs) :: bench

/-- Take a decoded instruction off the bench. -/
def fetchDecoded (d : Decoded) (f : List Byte → Bench) (bench : List Bench) (s : State) : Fetched :=
  match d with
  | .ok (i, rest) => .instr i { s with bench := putBack f rest bench }
  | .error e => .stop (.undecodable e)

/-- The next instruction, and the state with it taken from its port. -/
def fetch (s : State) : Fetched :=
  match s.bench with
  | .bytes bs :: bench => fetchDecoded (decodeFor s.cfg.chip bs) .bytes bench s
  | .response bs :: bench => fetchDecoded (decodeResponse bs) .response bench s
  | .named i :: bench => .instr i { s with bench := bench }
  | [] =>
    match s.calls with
    | [] => .idle
    | i :: calls => if i.isRequest then .instr i { s with calls := calls } else .stop .notARequest

/-- The bench entry of a word of spec/opcode_table.json (R68: BAD_CMD is a response). -/
def wordBench (nbits w : Nat) : Bench :=
  if (tableBytes nbits w).head? = some OPC.badCmd then .response (tableBytes nbits w) else .bytes (tableBytes nbits w)

end Sys2Proof.Machine
end

