-- ==== Sys2Proof/Machine/Step.lean ====
section
/-! DEFINITION. One step: the test bench first, then the host's next request; with neither, the machine waits. -/

namespace Sys2Proof.Machine

/-- One step. Parameters that break R8 are refused. A host may run only host requests (R50); the STE acts only inside
them, so with no request it stays as it is (R151). -/
def step (s : State) : Host.Outcome State Fault Refusal :=
  if s.cfg.ok then
    match fetch s with
    | .idle => .next s
    | .instr i s' => exec i s'
    | .stop r => .refused r
  else .refused .badParams

/-- `s` with a word of spec/opcode_table.json as the next thing on its test bench. -/
def State.withFetchWord (s : State) (nbits w : Nat) : State := { s with bench := wordBench nbits w :: s.bench }

end Sys2Proof.Machine
end

