-- ==== Sys2Proof/Safety.lean ====
section
/-! DEFINITION. The terms claims are made in: what a trace says (20_memory.md R29), what the outside world must answer
for a trace to happen (00_scope.md R11), the state a run of events leaves, the legal states (10_state.md R28), and the
machine's invariants. The machine reads none of them. -/

namespace Sys2Proof.Machine

/-! ### Events -/

/-- A write accepted in full (R80). -/
abbrev Event.sent (bs : List Byte) : Event := .wr bs bs.length true

/-- A read that got every byte it asked for (R82). -/
abbrev Event.got (bs : List Byte) : Event := .rd bs.length bs .ok

/-- A control request that succeeded (R79). -/
abbrev Event.did (q : CtrlReq) : Event := .ctrl q true

/-- The error an event raises, if it failed (R84, R85). -/
def Event.error : Event → Option Err
  | .ctrl _ ok => if ok then none else some (.transport .control)
  | .wr _ n ok => if ok then none else some (.transport (.write n))
  | .rd _ _ .ok => none
  | .rd _ _ .truncated => some .truncated
  | .rd _ _ .failed => some (.transport .readAvailable)
  | .flush _ ok => if ok then none else some (.transport .readAvailable)

/-- The command stream: the payloads of the writes, in order (R29 (2), R42 (c)). -/
def commandStream (tr : List Event) : List Byte :=
  tr.flatMap fun
    | .wr bs _ _ => bs
    | _ => []

/-- The response stream: what reads got and drains discarded, in order (R29 (3)). -/
def responseStream (tr : List Event) : List Byte :=
  tr.flatMap fun
    | .rd _ got _ => got
    | .flush dropped _ => dropped
    | _ => []

/-- The draws to come give exactly these events, in this order (R11, R79 to R83). -/
def Env.gives (p : Params) : Env → List Event → Bool
  | _, [] => true
  | e, .wr bs n ok :: evs =>
    decide ((usbWriteAll p.xferMax e.nextWr.1 bs).n = n) && decide ((usbWriteAll p.xferMax e.nextWr.1 bs).ok = ok)
      && e.nextWr.2.gives p evs
  | e, .rd n got st :: evs =>
    decide (usbReadAll p.raChunk e.nextRd.1.tail e.nextRd.1.turns n = ⟨got, st⟩) && e.nextRd.2.gives p evs
  | e, .flush dropped ok :: evs =>
    decide (usbFlush p.raChunk e.nextFlush.1 = ⟨dropped, ok⟩) && e.nextFlush.2.gives p evs
  | e, .ctrl _ ok :: evs => decide (e.nextCtrl.1 = ok) && e.nextCtrl.2.gives p evs

/-- The draws left after these events. -/
def Env.after : Env → List Event → Env
  | e, [] => e
  | e, .wr _ _ _ :: evs => e.nextWr.2.after evs
  | e, .rd _ _ _ :: evs => e.nextRd.2.after evs
  | e, .flush _ _ :: evs => e.nextFlush.2.after evs
  | e, .ctrl _ _ :: evs => e.nextCtrl.2.after evs

/-- The outside world will give `s` these events. -/
def State.gives (s : State) (evs : List Event) : Prop := s.env.gives s.cfg evs = true

/-- `s` after these events, with what they left in the STE, the bridge and the read buffers. The parameters, the calls,
the bench and the results are as before. -/
def State.went (s : State) (evs : List Event) (ste : Ste) (bridge : Bridge) (bufs : List (List Byte)) : State :=
  { s with ste := ste, bridge := bridge, bufs := bufs, env := s.env.after evs, trace := s.trace ++ evs }

/-- `s` after one request or one primitive: its events, what it left in each place, and its one result. Everything not
named here is as before: the parameters, the calls and the bench. -/
def State.ran (s : State) (evs : List Event) (ste : Ste) (bridge : Bridge) (bufs : List (List Byte)) (r : Result) :
    State :=
  (s.went evs ste bridge bufs).addResult r

/-- Success without a value (R143). -/
abbrev Result.done : Result := ⟨none, .unit⟩

/-- One error code (R143). -/
abbrev Result.failed (e : Err) : Result := ⟨some e, .unit⟩

/-! ### Commands on their own -/

/-- The bridge understands commands: it is in CMD_STREAM mode, and its parse position is at a command boundary. -/
abbrev State.ready (s : State) : Prop :=
  s.cfg.chip = .cmd ∧ s.ste.mux = .cmdStream ∧ s.bridge.aligned = true

/-- Run alone, `i` is one write of the bytes `bs`, and when that write is accepted it does `f` to the STE state and `g`
to the bridge, and nothing else. -/
def runsAs (i : Instr) (bs : List Byte) (f : Ste → Ste) (g : Bridge → Bridge) : Prop :=
  ∀ s : State, s.ready → s.gives [.sent bs] →
    exec i s = .next (s.ran [.sent bs] (f s.ste) (g s.bridge) s.bufs .done)

/-- A command that sets the clock base or the divisor (R64). -/
def setsClock : Instr → Bool
  | .setDivisor _ | .div5Off | .div5On => true
  | _ => false

/-! ### Legal states and invariants -/

/-- The mode `DEV_OPEN` leaves (R16). -/
def openMux : Chip → Mux
  | .cmd => .cmdStream
  | .bb => .syncBb

/-- The legal states of R28: (a) R16, R19 and R20, then (b), (c) and (d). -/
abbrev Ste.legal (chip : Chip) (t : Ste) : Prop :=
  (t.dev = .opened → t.mux = openMux chip)
    ∧ (chip = .bb → t.dev = .opened → t.bbdir = t.grpD.dir)
    ∧ ¬(t.usingSpi = true ∧ t.usingI2c = true)
    ∧ (t.spi.isSome = t.usingSpi)
    ∧ (t.i2c.isSome = t.usingI2c)
    ∧ (chip = .bb → t.usingI2c = false)

/-- Every stored rate is positive (R21, R24) and no SPI frequency is below the floor (R100). -/
abbrev Ste.ratesOk (p : Params) (t : Ste) : Prop :=
  (∀ f ∈ t.clk, 0 < f) ∧ (∀ b ∈ t.i2c, 0 < b.rate) ∧ (∀ c ∈ t.spi, p.fMin ≤ c.freq)

/-- The clock cache is a safe upper bound of the serial clock (R21): of the selected base over the divisor on CMD, and on BB
it is that clock, half the sample rate (R119). Whether the bridge's parse position is known does not matter. Only an open
device has a clock cached. -/
def State.clockBounded (s : State) : Prop :=
  (s.ste.dev ≠ .opened → s.ste.clk = none)
    ∧ ∀ f ∈ s.ste.clk,
      match s.cfg.chip with
      | .cmd => s.bridge.clock s.cfg ≤ f
      | .bb => ∃ r, s.bridge.rate = some r ∧ mkRat r 2 = f

/-- The pins of a group match its cache (R17). -/
def pinsMatch (g : Group) (latch dir : Byte) : Prop := latch = g.val ∧ dir = g.dir

/-- The cache reflects the pins unless it says it may not (R17, R18). On BB it says so of the levels of the output pins
only: the open of R95 writes the cache and no sample, and after a failed direction request a later group set that finds
`S.bbdir` unchanged does not repeat it (R98). -/
def State.pinsTracked (s : State) : Prop :=
  match s.cfg.chip with
  | .cmd =>
    s.bridge.aligned = true →
      (s.ste.grpD.indet = false → pinsMatch s.ste.grpD s.bridge.latchD s.bridge.dirD)
        ∧ (s.ste.grpC.indet = false → pinsMatch s.ste.grpC s.bridge.latchC s.bridge.dirC)
  | .bb =>
    s.ste.dev = .opened → s.ste.grpD.indet = false →
      s.bridge.latchD &&& s.ste.bbdir = s.ste.grpD.val &&& s.ste.bbdir

/-- No response byte is pending, and on CMD the bridge is at a command boundary: the response stream is in step with
the command stream (R43, R162). -/
abbrev State.inStep (s : State) : Prop :=
  (s.cfg.chip = .cmd → s.bridge.aligned = true) ∧ s.bridge.queue = [] ∧ s.bridge.sent = []

/-- Only host requests are waiting: nothing is on the test bench (R50). -/
abbrev State.hostOnly (s : State) : Prop := s.bench = []

/-- The BB burst of `n` bytes fits the receive capacity, where there is one (R163). -/
def burstFits (p : Params) (n : Nat) : Prop := ∀ cap ∈ p.bbRxCap, 16 * n + 4 ≤ cap

/-! ### Opening (R94) -/

/-- The events of the fast path up to the drain, and of the whole of it when both probes answer (R93, R94). -/
def modeSetEvents (dropped : List Byte) : List Event :=
  [.did .init, .did (.setBitmode 0 .reset), .did (.setBitmode 0 .cmdStream), .flush dropped true]

/-- The events of one probe that answers (R93). -/
def probeEvents (x : Byte) : List Event := [.sent [x, 0x87], .got [0xFA, x]]

/-- The events of a fast path that succeeds (R93, R94). -/
def fastPathEvents (dropped : List Byte) : List Event := modeSetEvents dropped ++ probeEvents 0xAA ++ probeEvents 0xAB

/-- The final write of an open (R94). -/
def finalBytes : List Byte := [0x8D, 0x9E, 0x00, 0x00, 0x80, 0x00, 0x00, 0x82, 0x00, 0x00]

/-- The events of a fast path that fails, and its error (R93, R94): "any failure inside returns that error". -/
inductive PathFails : List Event → Err → Prop
  | init : PathFails [.ctrl .init false] (.transport .control)
  | reset : PathFails [.did .init, .ctrl (.setBitmode 0 .reset) false] (.transport .control)
  | mode :
    PathFails [.did .init, .did (.setBitmode 0 .reset), .ctrl (.setBitmode 0 .cmdStream) false] (.transport .control)
  | drain (x : List Byte) :
    PathFails [.did .init, .did (.setBitmode 0 .reset), .did (.setBitmode 0 .cmdStream), .flush x false]
      (.transport .readAvailable)
  | probe1 (x : List Byte) (n : Nat) :
    PathFails (modeSetEvents x ++ [.wr [0xAA, 0x87] n false]) (.transport (.write n))
  | echo1 (x r : List Byte) (st : RdStatus) (e : Err) (err : (Event.rd 2 r st).error = some e) :
    PathFails (modeSetEvents x ++ [.sent [0xAA, 0x87], .rd 2 r st]) e
  | wrong1 (x r : List Byte) (ne : r ≠ [0xFA, 0xAA]) :
    PathFails (modeSetEvents x ++ [.sent [0xAA, 0x87], .rd 2 r .ok]) .verifyFailed
  | probe2 (x : List Byte) (n : Nat) :
    PathFails (modeSetEvents x ++ probeEvents 0xAA ++ [.wr [0xAB, 0x87] n false]) (.transport (.write n))
  | echo2 (x r : List Byte) (st : RdStatus) (e : Err) (err : (Event.rd 2 r st).error = some e) :
    PathFails (modeSetEvents x ++ probeEvents 0xAA ++ [.sent [0xAB, 0x87], .rd 2 r st]) e
  | wrong2 (x r : List Byte) (ne : r ≠ [0xFA, 0xAB]) :
    PathFails (modeSetEvents x ++ probeEvents 0xAA ++ [.sent [0xAB, 0x87], .rd 2 r .ok]) .verifyFailed

/-- The events of a second attempt that fails (R94): the reset, or the fast path after it. -/
def secondFails (evs : List Event) (e : Err) : Prop :=
  (evs = [.ctrl .resetDevice false] ∧ e = .transport .control)
    ∨ ∃ y ok rest, evs = [.did .resetDevice, .flush y ok] ++ rest ∧ PathFails rest e

/-! ### SPI transfer schedules -/

/-- Chunk `k` of a packet's answer. -/
def answerChunk (chunk : Nat) (p : Packet) (resp : List Byte) (k : Nat) : List Byte :=
  memRead resp (k * chunk) (chunkLen chunk p k)

/-- The read of a chunk, for a packet that reads (R107). -/
def chunkRead (chunk : Nat) (p : Packet) (resp : List Byte) (k : Nat) : List Event :=
  if hasR p then [.got (answerChunk chunk p resp k)] else []

/-- The bytes of chunk `k`, from the packet's own buffers as the caller gave them (R32, R106). -/
def chunkBytes (c : SpiConn) (chunk : Nat) (p : Packet) (k : Nat) : List Byte := encodeAll (chunkSeq c chunk p p.r k)

/-- The events of one packet on CMD (R107). -/
def packetEvents (c : SpiConn) (g : Group) (chunk : Nat) (p : Packet) (resp : List Byte) : List Event :=
  [.sent (encodeAll (spiHeaderSeq c g) ++ chunkBytes c chunk p 0)]
    ++ ((List.range (chunkCount chunk p - 1)).flatMap fun k =>
        .sent (chunkBytes c chunk p (k + 1)) :: chunkRead chunk p resp k)
    ++ chunkRead chunk p resp (chunkCount chunk p - 1)
    ++ (if c.nocs then [] else [.sent (encodeAll (spiTrailerSeq c g))])

/-- The events of one packet on BB (R115). -/
def burstEvents (c : SpiConn) (g : Group) (p : Packet) (resp : List Byte) : List Event :=
  [.sent (bbFrameOf c g p), .got resp]

/-- What one packet leaves in a bridge that understands commands (R104 to R107): the idle line state, the packet's bits
shifted out, and, if it reads, everything that was queued returned and the packet's own responses read. -/
def packetBridge (c : SpiConn) (g : Group) (p : Packet) (b : Bridge) : Bridge :=
  { b with
    latchD := spiIdle c g
    dirD := spiDir c g
    wire := b.wire ++ (chunkSrc p p.r).flatMap (shiftOrder c.lsbf)
    queue := if hasR p then [] else b.queue
    sent := if hasR p then (b.sent ++ b.queue ++ List.replicate p.r.length Resp.data).drop p.r.length else b.sent }

/-- Group D while connected and idle (R101). -/
def spiIdleGroup (c : SpiConn) (g : Group) : Group := { dir := spiDir c g, val := spiIdle c g, indet := false }

/-! ### What a request that stopped on a transport error has done (R146 to R148) -/

/-- The event is CLOCK_SELECT's write, or a SET_RATE (R91, R147 (b)). -/
def isClockEvent : Event → Bool
  | .wr [a, b, _, _] _ _ => (a == 0x8A || a == 0x8B) && b == 0x86
  | .ctrl (.setRate _) _ => true
  | _ => false

/-- The clock target of a request that selects a clock (R100, R114, R123, R124). -/
def clockTarget (p : Params) : Instr → Option Rat
  | .spiConnect f _ _ => some (hz (min f (spiCeiling p)))
  | .i2cOpen _ => some (i2cTarget p.i2cRate)
  | .i2cSetSpeed rate => some (i2cTarget rate)
  | _ => none

/-- The directions that successful direction requests commanded, in order (R19, R98). -/
def directions (evs : List Event) : List Byte :=
  evs.filterMap fun
    | .ctrl (.setBitmode mask .syncBb) true => some mask
    | _ => none

/-- What reads have received, read by read. -/
def readAnswers (evs : List Event) : List (List Byte) :=
  evs.filterMap fun
    | .rd _ got _ => some got
    | _ => none

/-- A request's read buffers as the caller gave them (R52, R55); a request without any leaves those of the one before. -/
def ownBufs (i : Instr) (before : List (List Byte)) : List (List Byte) :=
  match i with
  | .spiTx _ r => [r]
  | .i2cTx _ _ r => [r]
  | .spiTxPackets pkts => pkts.map (·.r)
  | _ => before

/-- Buffers filled in order with what was received: the rest is the caller's (R31, R148). -/
def fillBufs : List (List Byte) → List Byte → List (List Byte)
  | [], _ => []
  | r :: rs, got => (got.take r.length ++ r.drop got.length) :: fillBufs rs (got.drop r.length)

/-- The read buffers after complete bursts were read back, one for each packet so far (R115, R148). -/
def fillBursts (c : SpiConn) (lag : Nat) : List Packet → List (List Byte) → List (List Byte)
  | [], _ => []
  | p :: ps, [] => p.r :: fillBursts c lag ps []
  | p :: ps, x :: xs => bbDecimAll c lag x p.r.length :: fillBursts c lag ps xs

/-- The read buffers of a packet list after these successful events (R31, R107, R115). -/
def storedPackets (s : State) (pkts : List Packet) (evs : List Event) : List (List Byte) :=
  match s.cfg.chip, s.ste.spi with
  | .bb, some c => fillBursts c s.cfg.syncLag pkts (readAnswers evs)
  | _, _ => fillBufs (pkts.map (·.r)) (responseStream evs)

/-- The read buffers of a request after these successful events (R31, R148). The first reads of an I²C transaction are the
acknowledges (R129). -/
def storedBufs (s : State) (i : Instr) (evs : List Event) : List (List Byte) :=
  match i with
  | .spiTx w r => storedPackets s [txPacketOf w r] evs
  | .spiTxPackets pkts => storedPackets s pkts evs
  | .i2cTx _ w r => fillBufs [r] ((responseStream evs).drop (w.length + 1))
  | _ => s.bufs

/-! ### I²C transaction schedules (R129) -/

/-- The write of STOP and IDLE. -/
def stopEvents (k : Nat) (g : Group) : List Event := [.sent (encodeAll (i2cStopSeq k g ++ i2cIdleSeq g))]

/-- Write bytes, each acknowledged. -/
def ackedEvents (g : Group) (bs : List (Byte × Byte)) : List Event :=
  bs.flatMap fun x => [.sent (encodeAll (i2cWbSeq g x.1)), .got [x.2]]

/-- Read bytes: ACK for every one except the last. -/
def readEvents (g : Group) : List Byte → List Event
  | [] => []
  | x :: xs => .sent (encodeAll (i2cRbSeq g xs.isEmpty)) :: .got [x] :: readEvents g xs

/-- Group D on the idle I²C bus (R122, R126). -/
def i2cIdleGroup (g : Group) : Group := { dir := i2cDir g, val := i2cVal g true true, indet := false }

end Sys2Proof.Machine
end

