-- ==== Sys2Proof/Certificates/Slice0/Obligations.lean ====
section
/-! DEFINITION. The statements for the provers, from the numbered rules of spec/. A statement about one request reads:
if the outside world gives these events (`State.gives`), then `exec` answers the next state `State.ran` of those events,
whose fields outside the ones written are as before. -/

section
open Sys2Proof Sys2Proof.Machine

/-! ### The command stream -/

/-- R60 with R34 and R35: each SHIFT_BYTES_OUT is its opcode, the length minus one low byte first, and the payload. It
queues no response. A command run alone, with no device check and one result, is the model's choice (assumption 12), and
the log of shifted bits is the model's own (assumption 10). -/
def Obligations.ShiftBytesOutRuns : Prop :=
  ∀ p : List Byte, 1 ≤ p.length → p.length ≤ 65536 →
    let bytes (op : Byte) : List Byte :=
      [op, BitVec.ofNat 8 ((p.length - 1) % 256), BitVec.ofNat 8 ((p.length - 1) / 256 % 256)] ++ p
    let shifted (order : List Nat) (b : Bridge) : Bridge :=
      { b with wire := b.wire ++ p.flatMap fun x => order.map x.getLsbD }
    runsAs (.shiftBytesOut10 p) (bytes 0x10) id (shifted [7, 6, 5, 4, 3, 2, 1, 0])
      ∧ runsAs (.shiftBytesOut11 p) (bytes 0x11) id (shifted [7, 6, 5, 4, 3, 2, 1, 0])
      ∧ runsAs (.shiftBytesOut18 p) (bytes 0x18) id (shifted [0, 1, 2, 3, 4, 5, 6, 7])
      ∧ runsAs (.shiftBytesOut19 p) (bytes 0x19) id (shifted [0, 1, 2, 3, 4, 5, 6, 7])

/-- R60 with R34 and R35: SHIFT_BYTES_IN has no payload and queues `n` response bytes; each SHIFT_BYTES_INOUT carries its
payload and queues one response byte for each byte of it. The run alone is assumption 12, the log of shifted bits
assumption 10. -/
def Obligations.ShiftBytesInRuns : Prop :=
  (∀ n : Nat, 1 ≤ n → n ≤ 65536 →
    runsAs (.shiftBytesIn n) [0x20, BitVec.ofNat 8 ((n - 1) % 256), BitVec.ofNat 8 ((n - 1) / 256 % 256)] id
      (fun b => { b with queue := b.queue ++ List.replicate n .data }))
    ∧ ∀ p : List Byte, 1 ≤ p.length → p.length ≤ 65536 →
      let bytes (op : Byte) : List Byte :=
        [op, BitVec.ofNat 8 ((p.length - 1) % 256), BitVec.ofNat 8 ((p.length - 1) / 256 % 256)] ++ p
      let shifted (order : List Nat) (b : Bridge) : Bridge :=
        { b with
          wire := b.wire ++ p.flatMap fun x => order.map x.getLsbD
          queue := b.queue ++ List.replicate p.length .data }
      runsAs (.shiftBytesInout31 p) (bytes 0x31) id (shifted [7, 6, 5, 4, 3, 2, 1, 0])
        ∧ runsAs (.shiftBytesInout34 p) (bytes 0x34) id (shifted [7, 6, 5, 4, 3, 2, 1, 0])
        ∧ runsAs (.shiftBytesInout39 p) (bytes 0x39) id (shifted [0, 1, 2, 3, 4, 5, 6, 7])
        ∧ runsAs (.shiftBytesInout3C p) (bytes 0x3C) id (shifted [0, 1, 2, 3, 4, 5, 6, 7])

/-- R61: SHIFT_BITS_OUT shifts out the `nb` most significant bits of its payload byte, and SHIFT_BITS_IN queues one
response byte for its `nb` bits. The run alone is assumption 12, the log of shifted bits assumption 10. -/
def Obligations.ShiftBitsRuns : Prop :=
  ∀ nb : Nat, 1 ≤ nb → nb ≤ 8 →
    runsAs (.shiftBitsIn nb) [0x22, BitVec.ofNat 8 (nb - 1)] id (fun b => { b with queue := b.queue ++ [.bits nb] })
      ∧ ∀ x : Byte, runsAs (.shiftBitsOut nb x) [0x13, BitVec.ofNat 8 (nb - 1), x] id
          (fun b => { b with wire := b.wire ++ (List.range nb).map fun k => x.getLsbD (7 - k) })

/-- R58 and R69: a data shift whose opcode R69 lists runs as the row of that opcode does; any other is refused as a
reserved opcode. That a count or payload without an encoding is refused is assumption 27, the run alone is assumption 12,
and the log of shifted bits is assumption 10. -/
def Obligations.DataShiftRunsOrStops : Prop :=
  ∀ (sel : ShiftSel) (n : Nat) (p : List Byte),
    if sel.opcode ∈ ([0x10, 0x11, 0x18, 0x19, 0x20, 0x22, 0x13, 0x31, 0x34, 0x39, 0x3C] : List Byte) then
      (sel.wf n p = true →
        runsAs (.dataShift sel n p) (encodeShift sel n p) id
          (fun b => { b with wire := b.wire ++ shiftOutBits sel n p, queue := b.queue ++ shiftResponses sel n }))
        ∧ (sel.wf n p = false → ∀ s, exec (.dataShift sel n p) s = .refused .badOperand)
    else ∀ s, exec (.dataShift sel n p) s = .refused (.reservedOpcode sel.opcode)

/-- R69, and R60 to R64 for the operands: a reserved opcode, a data shift whose opcode is not listed, and a command whose
operands have no encoding are never emitted. "A model of the STE refuses to produce such a command." That one with a bad
operand is refused is assumption 27. -/
def Obligations.ReservedStops : Prop :=
  (∀ (op : Byte) (s : State), exec (.reserved op) s = .refused (.reservedOpcode op))
    ∧ ∀ (i : Instr) (s : State), i.isCommand = true → i.emittable = false →
      exec i s = .refused .badOperand
        ∨ ∃ sel n p, i = .dataShift sel n p ∧ exec i s = .refused (.reservedOpcode sel.opcode)

/-- R62 with R97: a group set loads the group's latches and directions in the bridge, and then the cache holds its
operands and is not indeterminate. The run alone, with one result, is the model's choice (assumption 12). -/
def Obligations.GroupSetRuns : Prop :=
  ∀ val dir : Byte,
    runsAs (.setBitsLow val dir) [0x80, val, dir]
        (fun t => { t with grpD := { dir := dir, val := val, indet := false } })
        (fun b => { b with latchD := val, dirD := dir })
      ∧ runsAs (.setBitsHigh val dir) [0x82, val, dir]
        (fun t => { t with grpC := { dir := dir, val := val, indet := false } })
        (fun b => { b with latchC := val, dirC := dir })

/-- R63 to R68: the group reads and the probes queue their response bytes, the clock, phasing and open-drain commands
change their setting, SEND_IMMEDIATE returns what is queued, and no command does anything else. The run alone, with no
device check and one result, is the model's choice (assumption 12). -/
def Obligations.PlainCommandsRun : Prop :=
  runsAs .readBitsLow [0x81] id (fun b => { b with queue := b.queue ++ [.pins .d] })
    ∧ runsAs .readBitsHigh [0x83] id (fun b => { b with queue := b.queue ++ [.pins .c] })
    ∧ runsAs .div5Off [0x8A] id (fun b => { b with lowBase := false })
    ∧ runsAs .div5On [0x8B] id (fun b => { b with lowBase := true })
    ∧ (∀ d : Nat, 1 ≤ d → d ≤ 65536 →
        runsAs (.setDivisor d) [0x86, BitVec.ofNat 8 ((d - 1) % 256), BitVec.ofNat 8 ((d - 1) / 256 % 256)] id
          (fun b => { b with divisor := d }))
    ∧ runsAs .clk3PhaseOn [0x8C] id (fun b => { b with threePhase := true })
    ∧ runsAs .clk3PhaseOff [0x8D] id (fun b => { b with threePhase := false })
    ∧ (∀ maskD maskC : Byte, runsAs (.driveZeroOnly maskD maskC) [0x9E, maskD, maskC] id
        (fun b => { b with odD := maskD, odC := maskC }))
    ∧ runsAs .sendImmediate [0x87] id (fun b => { b with sent := b.sent ++ b.queue, queue := [] })
    ∧ runsAs .probe1 [0xAA] id (fun b => { b with queue := b.queue ++ [.marker, .echo 0xAA] })
    ∧ runsAs .probe2 [0xAB] id (fun b => { b with queue := b.queue ++ [.marker, .echo 0xAB] })

/-- R68 and R69, the bridge's side: in CMD_STREAM mode BAD_CMD of a probe queues the marker and the probe. An opcode the STE
emits as a command is recognised, and in another mode there is no such answer: nothing happens. For any other byte, whose
behaviour no source gives (R69), the step runs and changes nothing outside the bridge, whose parse position is then unknown.
The STE does nothing. That it is a step of its own, and what it does where R68 gives no answer, is the model's choice
(assumption 15). -/
def Obligations.BadCmdQueues : Prop :=
  let recognised : List Byte := [0x10, 0x11, 0x18, 0x19, 0x20, 0x22, 0x13, 0x31, 0x34, 0x39, 0x3C, 0x80, 0x81, 0x82, 0x83,
    0x86, 0x87, 0x8A, 0x8B, 0x8C, 0x8D, 0x9E]
  ∀ (op : Byte) (s : State),
    (s.cfg.chip = .cmd → s.ste.mux = .cmdStream →
      (op = 0xAA ∨ op = 0xAB →
        exec (.badCmd op) s
          = .next { s with bridge := { s.bridge with queue := s.bridge.queue ++ [.marker, .echo op] } })
      ∧ (op ∈ recognised → exec (.badCmd op) s = .next s)
      ∧ (¬(op = 0xAA ∨ op = 0xAB) → op ∉ recognised →
        ∃ b : Bridge, exec (.badCmd op) s = .next { s with bridge := b } ∧ b.aligned = false))
      ∧ (¬(s.cfg.chip = .cmd ∧ s.ste.mux = .cmdStream) → exec (.badCmd op) s = .next s)

/-- R75 and R76: on BB every byte the STE writes is one sample: the last one drives the pins, the cache follows it, and the
bridge returns one sample for each. So it is with BB_SAMPLE, and with the bytes of a command run alone on BB. On CMD there
is no sample stream. A primitive run on its own is the model's choice (assumptions 12 and 13). -/
def Obligations.BbSamplesRun : Prop :=
  ∀ s : State,
    (∀ x : Byte, s.cfg.chip = .bb → s.ste.mux = .syncBb → s.gives [.sent [x]] →
      exec (.bbSample x) s
        = .next (s.ran [.sent [x]] { s.ste with grpD := { s.ste.grpD with val := x } }
            { s.bridge with latchD := x, sent := s.bridge.sent ++ [.sample] } s.bufs .done))
      ∧ (∀ i : Instr, i.emittable = true → s.cfg.chip = .bb → s.ste.mux = .syncBb → s.gives [.sent (encode i)] →
        ∃ last, (encode i).getLast? = some last ∧
          exec i s
            = .next (s.ran [.sent (encode i)] { s.ste with grpD := { s.ste.grpD with val := last } }
                { s.bridge with latchD := last, sent := s.bridge.sent ++ List.replicate (encode i).length .sample }
                s.bufs .done))
      ∧ ∀ x : Byte, s.cfg.chip = .cmd → exec (.bbSample x) s = .refused .noSampleStream

/-- R97 and R84: a write that fails leaves `val` and `dir` of every group and marks the group indeterminate. The request
returns the transport error with its partial count. The bridge's parse position is unknown (R46), its sample rate is kept,
and so is its serial clock unless the command was to change it (R21, R119). That R147 (a) applies to a command run alone is
the model's choice (assumption 12), and so is what else of the bridge stays (assumption 9). -/
def Obligations.FailedWriteMarksGroup : Prop :=
  ∀ (i : Instr) (s : State) (n : Nat), i.emittable = true → s.cfg.chip = .cmd → s.gives [.wr (encode i) n false] →
    ∃ b : Bridge, b.aligned = false ∧ b.rate = s.bridge.rate
      ∧ (s.ready → setsClock i = false → b.lowBase = s.bridge.lowBase ∧ b.divisor = s.bridge.divisor)
      ∧ exec i s
        = .next (s.ran [.wr (encode i) n false]
            (match i with
              | .setBitsHigh _ _ | .readBitsHigh => { s.ste with grpC := { s.ste.grpC with indet := true } }
              | _ => { s.ste with grpD := { s.ste.grpD with indet := true } })
            b s.bufs (.failed (.transport (.write n))))

/-- R70, clause by clause: the length of a command, told by its opcode and its length field; any other opcode is refused.
Last, the length so told is that of every command's own bytes, whatever follows them. -/
def Obligations.LengthDecoding : Prop :=
  (∀ (op lo hi : Byte) (rest : List Byte), op &&& 0xC0 = 0 → op &&& 0x30 ≠ 0 → op &&& 0x02 = 0 →
    commandLength (op :: lo :: hi :: rest)
      = some (if op &&& 0x10 ≠ 0 then 3 + (1 + (lo.toNat + 256 * hi.toNat)) else 3))
    ∧ (∀ (op : Byte) (rest : List Byte), op &&& 0xC0 = 0 → op &&& 0x30 ≠ 0 → op &&& 0x02 ≠ 0 →
      commandLength (op :: rest) = some (if op &&& 0x10 ≠ 0 then 3 else 2))
    ∧ (∀ op ∈ ([0x80, 0x82, 0x86, 0x9E] : List Byte), ∀ rest, commandLength (op :: rest) = some 3)
    ∧ (∀ op ∈ ([0x81, 0x83, 0x87, 0x8A, 0x8B, 0x8C, 0x8D, 0xAA, 0xAB] : List Byte), ∀ rest,
      commandLength (op :: rest) = some 1)
    ∧ (∀ (op : Byte) (rest : List Byte), ¬(op &&& 0xC0 = 0 ∧ op &&& 0x30 ≠ 0) →
      op ∉ ([0x80, 0x82, 0x86, 0x9E, 0x81, 0x83, 0x87, 0x8A, 0x8B, 0x8C, 0x8D, 0xAA, 0xAB] : List Byte) →
      commandLength (op :: rest) = none)
    ∧ ∀ (i : Instr) (rest : List Byte), i.isCommand = true → i.wf = true →
      commandLength (encode i ++ rest) = some (encode i).length

/-- Decoding the bytes of any instruction that stands in a command stream gives it back, with every operand at every
value its encoding admits, and leaves what follows; and encoding what the decoder reads gives back the bytes it read, so
that no two byte strings are one command. -/
def Obligations.DecodeEncode : Prop :=
  (∀ (i : Instr) (rest : List Byte), i.encodable = true → decode (encode i ++ rest) = .ok (i, rest))
    ∧ ∀ (bs : List Byte) (i : Instr) (rest : List Byte), decode bs = .ok (i, rest) →
      encode i ++ rest = bs ∧ i.encodable = true

/-- Words written out from the encodings of R58 to R69, one for each family. -/
def Obligations.WordsDecode : Prop :=
  decode [0x31, 0x02, 0x00, 0x01, 0x02, 0x03, 0x87] = .ok (.shiftBytesInout31 [1, 2, 3], [0x87])
    ∧ decode [0x22, 0x00] = .ok (.shiftBitsIn 1, [])
    ∧ decode [0x13, 0x00, 0xFF] = .ok (.shiftBitsOut 1 0xFF, [])
    ∧ decode [0x80, 0x08, 0x0B] = .ok (.setBitsLow 0x08 0x0B, [])
    ∧ decode [0x86, 0xC7, 0x00] = .ok (.setDivisor 200, [])
    ∧ decode [0x9E, 0x03, 0x00] = .ok (.driveZeroOnly 3 0, [])
    ∧ decode [0xAA, 0x87] = .ok (.probe1, [0x87])
    ∧ decode [0x05] = .ok (.reserved 5, [])
    ∧ decodeResponse [0xFA, 0xAB] = .ok (.badCmd 0xAB, [])

/-! ### Control requests -/

/-- R74: what each control request does when it succeeds, and the mode codes. A reset leaves the bridge's queues empty. R17
and R19: on BB the SYNC_BB direction is the cache's and `bbdir`'s too (assumption 30). Outside SYNC_BB the mask is 0x00 and
SET_RATE is not issued, so the others are refused. That SET_BITMODE and INIT leave the rest of the bridge is assumption 21,
and the run alone, with one result and `S.clk` as it was, is assumption 12. -/
def Obligations.ControlRuns : Prop :=
  (BitMode.code .reset = 0x00 ∧ BitMode.code .cmdStream = 0x02 ∧ BitMode.code .syncBb = 0x04)
    ∧ ∀ s : State,
      (s.gives [.did .resetDevice] →
        ∃ b : Bridge, b.queue = [] ∧ b.sent = [] ∧
          exec .resetDevice s = .next (s.ran [.did .resetDevice] { s.ste with mux := .unknown } b s.bufs .done))
        ∧ (s.gives [.did .init] → exec .init s = .next (s.ran [.did .init] s.ste s.bridge s.bufs .done))
        ∧ (s.gives [.did (.setBitmode 0 .reset)] →
          exec (.setBitmode 0 .reset) s
            = .next (s.ran [.did (.setBitmode 0 .reset)] { s.ste with mux := .reset } s.bridge s.bufs .done))
        ∧ (s.gives [.did (.setBitmode 0 .cmdStream)] →
          exec (.setBitmode 0 .cmdStream) s
            = .next (s.ran [.did (.setBitmode 0 .cmdStream)] { s.ste with mux := .cmdStream } s.bridge s.bufs .done))
        ∧ (∀ m, m ≠ 0 → exec (.setBitmode m .reset) s = .refused .badOperand
          ∧ exec (.setBitmode m .cmdStream) s = .refused .badOperand)
        ∧ (∀ m, s.gives [.did (.setBitmode m .syncBb)] →
          exec (.setBitmode m .syncBb) s
            = .next (s.ran [.did (.setBitmode m .syncBb)]
                (match s.cfg.chip with
                  | .cmd => { s.ste with mux := .syncBb }
                  | .bb => { s.ste with mux := .syncBb, bbdir := m, grpD := { s.ste.grpD with dir := m } })
                { s.bridge with dirD := m } s.bufs .done))
        ∧ ∀ r,
          (s.ste.mux = .syncBb → s.gives [.did (.setRate r)] →
            exec (.setRate r) s = .next (s.ran [.did (.setRate r)] s.ste { s.bridge with rate := some r } s.bufs .done))
          ∧ (s.ste.mux ≠ .syncBb → exec (.setRate r) s = .refused .noSampleStream)

/-! ### The composites (R78) -/

/-- R104: SPI_HEADER sets the idle and then the asserted level, or the idle level alone with NO_CS, and SPI_TRAILER sets
the idle level again; with NO_CS the trailer is empty. The line values are those of R23, and the cache follows (R97). The
run alone with one result is assumption 12, and the checks before it are assumption 14. -/
def Obligations.SpiFrameRuns : Prop :=
  ∀ s : State,
    (∀ c : SpiConn, s.ready → s.ste.dev = .opened → s.ste.spi = some c →
      let g := s.ste.grpD
      let mask : Byte := 0x01 ||| 0x02 ||| (if c.nocs then 0 else 0x08)
      let dir : Byte := (g.dir ||| mask) &&& ~~~0x04
      let idle : Byte := (g.val &&& ~~~mask) ||| (if c.cpol then 0x01 else 0) ||| (if c.nocs then 0 else 0x08)
      let assert : Byte := idle &&& ~~~(if c.nocs then 0 else 0x08 : Byte)
      let header : List Byte := [0x80, idle, dir] ++ (if c.nocs then [] else [0x80, assert, dir])
      let trailer : List Byte := [0x80, idle, dir]
      let set (val : Byte) (evs : List Event) : State :=
        s.ran evs { s.ste with grpD := { dir := dir, val := val, indet := false } }
          { s.bridge with latchD := val, dirD := dir } s.bufs .done
      (s.gives [.sent header] → exec .spiHeader s = .next (set (if c.nocs then idle else assert) [.sent header]))
        ∧ (if c.nocs then exec .spiTrailer s = .next (s.ran [] s.ste s.bridge s.bufs .done)
          else s.gives [.sent trailer] → exec .spiTrailer s = .next (set idle [.sent trailer])))
      ∧ ∀ i ∈ [Instr.spiHeader, .spiTrailer],
        (s.ste.dev ≠ .opened → exec i s = .next (s.ran [] s.ste s.bridge s.bufs (.failed .notOpen)))
          ∧ (s.ste.dev = .opened → s.ste.spi = none →
            exec i s = .next (s.ran [] s.ste s.bridge s.bufs (.failed .notConnected)))

/-- R106 with R59: CHUNK_CMD of a chunk the packet has. The bits shifted are those of its bytes in the connection's bit order
(R35, assumption 10). The order of the checks before it is assumption 14, that a chunk the packet has not is refused is
assumption 27, and the run alone with one result is assumption 12. -/
def Obligations.ChunkCmdRuns : Prop :=
  ∀ (s : State) (p : Packet) (k : Nat),
    (∀ c : SpiConn, s.ready → s.ste.dev = .opened → s.ste.spi = some c → packetError p = none → 1 ≤ s.cfg.pChunk →
      let n := max p.w.length p.r.length
      let len := min s.cfg.pChunk (n - k * s.cfg.pChunk)
      let hasR := !p.r.isEmpty
      let op : Byte :=
        0x10 ||| (if c.cpol = c.cpha then 0x01 else 0) ||| (if c.lsbf then 0x08 else 0)
          ||| (if hasR then 0x20 ||| (if c.cpol = c.cpha then 0 else 0x04) else 0)
      let data := ((if p.w.isEmpty then p.r else p.w).drop (k * s.cfg.pChunk)).take len
      let order : List Nat := if c.lsbf then [0, 1, 2, 3, 4, 5, 6, 7] else [7, 6, 5, 4, 3, 2, 1, 0]
      let bytes : List Byte :=
        [op, BitVec.ofNat 8 ((len - 1) % 256), BitVec.ofNat 8 ((len - 1) / 256 % 256)] ++ data
          ++ (if hasR then [0x87] else [])
      (k * s.cfg.pChunk < n → s.gives [.sent bytes] →
        exec (.chunkCmd p k) s
          = .next (s.ran [.sent bytes] s.ste
              { s.bridge with
                wire := s.bridge.wire ++ data.flatMap fun x => order.map x.getLsbD
                queue := if hasR then [] else s.bridge.queue
                sent := if hasR then s.bridge.sent ++ s.bridge.queue ++ List.replicate len .data else s.bridge.sent }
              s.bufs .done))
        ∧ (n ≤ k * s.cfg.pChunk → exec (.chunkCmd p k) s = .refused .noSuchChunk))
      ∧ (s.ste.dev ≠ .opened → exec (.chunkCmd p k) s = .next (s.ran [] s.ste s.bridge s.bufs (.failed .notOpen)))
      ∧ (s.ste.dev = .opened → s.ste.spi = none →
        exec (.chunkCmd p k) s = .next (s.ran [] s.ste s.bridge s.bufs (.failed .notConnected)))
      ∧ ∀ e, s.ste.dev = .opened → s.ste.spi ≠ none → packetError p = some e →
        exec (.chunkCmd p k) s = .next (s.ran [] s.ste s.bridge s.bufs (.failed e))

/-- R91 and R93: CLOCK_CMDS is one write of 4 bytes, the base select first; PROBE(x) is the probe and SEND_IMMEDIATE, so
both echo bytes are returned at once. A divisor outside 1 to 65536 has no encoding (R64), and that it is refused is
assumption 27; no other opcode is emitted as a probe (R69). The run alone, with no device check, one result and `S.clk` as it
was, is assumption 12. -/
def Obligations.ClockAndProbeRun : Prop :=
  (∀ (low : Bool) (d : Nat),
    if 1 ≤ d ∧ d ≤ 65536 then
      runsAs (.clockCmds low d)
        [if low then 0x8B else 0x8A, 0x86, BitVec.ofNat 8 ((d - 1) % 256), BitVec.ofNat 8 ((d - 1) / 256 % 256)] id
        (fun b => { b with lowBase := low, divisor := d })
    else ∀ s, exec (.clockCmds low d) s = .refused .badOperand)
    ∧ ∀ x : Byte,
      if x = 0xAA ∨ x = 0xAB then
        runsAs (.probe x) [x, 0x87] id
          (fun b => { b with sent := b.sent ++ b.queue ++ [.marker, .echo x], queue := [] })
      else ∀ s, exec (.probe x) s = .refused (.reservedOpcode x)

/-- R126 with R122: I2C_START, I2C_STOP and I2C_IDLE are their group sets, each line state `K` times, and the cache follows
(R97). The run alone with one result is assumption 12, and the check of the device assumption 14. -/
def Obligations.I2cConditionsRun : Prop :=
  ∀ s : State,
    (s.ready → s.ste.dev = .opened → 1 ≤ s.cfg.k →
      let g := s.ste.grpD
      let dir : Byte := (g.dir ||| 0x03) &&& ~~~0x04
      let v (scl sda : Byte) : Byte := (g.val &&& ~~~(0x03 : Byte)) ||| scl ||| (sda <<< 1)
      let set (scl sda : Byte) : List Byte := [0x80, v scl sda, dir]
      let start := (List.replicate s.cfg.k (set 1 0)).flatten ++ (List.replicate s.cfg.k (set 0 0)).flatten
      let stop :=
        (List.replicate s.cfg.k (set 0 0)).flatten ++ (List.replicate s.cfg.k (set 1 0)).flatten
          ++ (List.replicate s.cfg.k (set 1 1)).flatten
      let ends (bytes : List Byte) (val : Byte) : Host.Outcome State Fault Refusal :=
        .next (s.ran [.sent bytes] { s.ste with grpD := { dir := dir, val := val, indet := false } }
          { s.bridge with latchD := val, dirD := dir } s.bufs .done)
      (s.gives [.sent start] → exec .i2cStart s = ends start (v 0 0))
        ∧ (s.gives [.sent stop] → exec .i2cStop s = ends stop (v 1 1))
        ∧ (s.gives [.sent (set 1 1)] → exec .i2cIdle s = ends (set 1 1) (v 1 1)))
      ∧ (s.ste.dev ≠ .opened → ∀ i ∈ [Instr.i2cStart, .i2cStop, .i2cIdle],
        exec i s = .next (s.ran [] s.ste s.bridge s.bufs (.failed .notOpen)))

/-- R127 and R128 with R122: each byte step ends with SDA released, and returns exactly one response byte. The run alone with
one result is assumption 12, the check of the device assumption 14, and the log of shifted bits assumption 10. -/
def Obligations.I2cByteStepsRun : Prop :=
  ∀ s : State,
    (s.ready → s.ste.dev = .opened →
      let g := s.ste.grpD
      let dir : Byte := (g.dir ||| 0x03) &&& ~~~0x04
      let released : Byte := (g.val &&& ~~~0x03) ||| 0x02
      let ends (bytes : List Byte) (bits : List Bool) (r : Resp) : Host.Outcome State Fault Refusal :=
        .next (s.ran [.sent bytes] { s.ste with grpD := { dir := dir, val := released, indet := false } }
          { s.bridge with
            wire := s.bridge.wire ++ bits
            latchD := released
            dirD := dir
            sent := s.bridge.sent ++ s.bridge.queue ++ [r]
            queue := [] } s.bufs .done)
      (∀ b : Byte,
        let bytes : List Byte := [0x11, 0x00, 0x00, b, 0x80, released, dir, 0x22, 0x00, 0x87]
        s.gives [.sent bytes] → exec (.i2cWb b) s = ends bytes ([7, 6, 5, 4, 3, 2, 1, 0].map b.getLsbD) (.bits 1))
        ∧ ∀ last : Bool,
          let bytes : List Byte :=
            [0x20, 0x00, 0x00, 0x13, 0x00, if last then 0xFF else 0x00, 0x80, released, dir, 0x87]
          s.gives [.sent bytes] → exec (.i2cRb last) s = ends bytes [last] .data)
      ∧ (s.ste.dev ≠ .opened → ∀ (b : Byte) (last : Bool), ∀ i ∈ [Instr.i2cWb b, .i2cRb last],
        exec i s = .next (s.ran [] s.ste s.bridge s.bufs (.failed .notOpen)))

/-- R116: the frame, written out with the pins of R72: the idle and the asserted level, two samples for each bit in shift
order with SCK at its two levels and MOSI at the bit, the asserted and the idle level. BB_FRAME on BB is one write of it.
That it runs alone with one result is assumption 12, the order of the checks before it is assumption 14, and that there is
no sample stream on CMD is assumption 13. -/
def Obligations.BbFrameRuns : Prop :=
  (∀ (c : SpiConn) (g : Group) (p : Packet),
    let mask : Byte := 0x01 ||| 0x02 ||| (if c.nocs then 0 else 0x08)
    let idle : Byte := (g.val &&& ~~~mask) ||| (if c.cpol then 0x01 else 0) ||| (if c.nocs then 0 else 0x08)
    let assert : Byte := idle &&& ~~~(if c.nocs then 0 else 0x08 : Byte)
    let smp (clock bit : Bool) : Byte :=
      (assert &&& ~~~0x03) ||| (if clock then 0x01 else 0) ||| (if bit then 0x02 else 0)
    let pair (bit : Bool) : List Byte :=
      if c.cpha then [smp (!c.cpol) bit, smp c.cpol bit] else [smp c.cpol bit, smp (!c.cpol) bit]
    let order : List Nat := if c.lsbf then [0, 1, 2, 3, 4, 5, 6, 7] else [7, 6, 5, 4, 3, 2, 1, 0]
    let data : List Byte := if p.w.isEmpty then List.replicate p.r.length 0 else p.w
    bbFrameOf c g p
      = [idle, assert] ++ (data.flatMap fun x => order.flatMap fun k => pair (x.getLsbD k)) ++ [assert, idle])
    ∧ (∀ (s : State) (p : Packet), s.cfg.chip = .bb →
      (∀ c, s.ste.dev = .opened → s.ste.mux = .syncBb → s.ste.spi = some c → packetError p = none →
        s.gives [.sent (bbFrameOf c s.ste.grpD p)] →
        (bbFrameOf c s.ste.grpD p).length = 16 * max p.w.length p.r.length + 4 ∧
        exec (.bbFrame p) s
          = .next (s.ran [.sent (bbFrameOf c s.ste.grpD p)]
              { s.ste with grpD := { s.ste.grpD with val := spiIdle c s.ste.grpD } }
              { s.bridge with
                latchD := spiIdle c s.ste.grpD
                sent := s.bridge.sent ++ List.replicate (16 * max p.w.length p.r.length + 4) .sample } s.bufs .done))
        ∧ (s.ste.dev ≠ .opened → exec (.bbFrame p) s = .next (s.ran [] s.ste s.bridge s.bufs (.failed .notOpen)))
        ∧ (s.ste.dev = .opened → s.ste.spi = none →
          exec (.bbFrame p) s = .next (s.ran [] s.ste s.bridge s.bufs (.failed .notConnected)))
        ∧ (∀ e, s.ste.dev = .opened → s.ste.spi ≠ none → packetError p = some e →
          exec (.bbFrame p) s = .next (s.ran [] s.ste s.bridge s.bufs (.failed e))))
    ∧ ∀ (s : State) (p : Packet), s.cfg.chip = .cmd → exec (.bbFrame p) s = .refused .noSampleStream

/-! ### Device open and close -/

/-- R94 and R161: `DEV_OPEN` on CMD. Either the first attempt takes the fast path, or it fails in any way (its error is
never surfaced) and the second one resets the device, drains with errors ignored, and takes the fast path. The final
write follows, and the bridge is left as R161 says. That its parse position is known and no response is pending after the
two echoes is assumption 22. -/
def Obligations.OpenOnCmd : Prop :=
  ∀ (s : State) (before : List Event) (x : List Byte), s.cfg.chip = .cmd → s.ste.dev ≠ .opened →
    (before = [] ∨ ∃ evs e y ok, PathFails evs e ∧ before = evs ++ [.did .resetDevice, .flush y ok]) →
    s.gives (before ++ fastPathEvents x ++ [.sent finalBytes]) →
    ∃ b : Bridge,
      exec .devOpen s
          = .next (s.ran (before ++ fastPathEvents x ++ [.sent finalBytes])
              { dev := .opened, mux := .cmdStream, grpD := ⟨0, 0, false⟩, grpC := ⟨0, 0, false⟩, usingSpi := false,
                usingI2c := false, clk := none, spi := none, i2c := none, bbdir := s.ste.bbdir } b s.bufs .done)
        ∧ b.aligned = true ∧ b.threePhase = false ∧ b.odD = 0 ∧ b.odC = 0 ∧ b.latchD = 0 ∧ b.dirD = 0 ∧ b.latchC = 0
        ∧ b.dirC = 0 ∧ b.queue = [] ∧ b.sent = []

/-- R94, R95 and R150: a final open error leaves the device FAILED with the mux UNKNOWN (assumption 7), and is the request's.
On CMD: when both attempts fail, the second error, and there is no third attempt; or when the final write fails, which is not
retried, and marks both groups it sets indeterminate (R97). On BB: when any of the three control requests fails. Every other
field of the STE is as before. -/
def Obligations.OpenFailsHard : Prop :=
  ∀ s : State, s.ste.dev ≠ .opened →
    (s.cfg.chip = .cmd → ∀ (evs1 evs2 : List Event) (e1 e2 : Err), PathFails evs1 e1 → secondFails evs2 e2 →
      s.gives (evs1 ++ evs2) →
      ∃ b : Bridge,
        exec .devOpen s
          = .next (s.ran (evs1 ++ evs2) { s.ste with dev := .failed, mux := .unknown } b s.bufs (.failed e2)))
      ∧ (s.cfg.chip = .cmd → ∀ (before : List Event) (x : List Byte) (n : Nat),
        (before = [] ∨ ∃ evs e y ok, PathFails evs e ∧ before = evs ++ [.did .resetDevice, .flush y ok]) →
        s.gives (before ++ fastPathEvents x ++ [.wr finalBytes n false]) →
        ∃ b : Bridge, b.aligned = false ∧
          exec .devOpen s
            = .next (s.ran (before ++ fastPathEvents x ++ [.wr finalBytes n false])
                { s.ste with
                  dev := .failed
                  mux := .unknown
                  grpD := { s.ste.grpD with indet := true }
                  grpC := { s.ste.grpC with indet := true } } b s.bufs (.failed (.transport (.write n)))))
      ∧ (s.cfg.chip = .bb →
        ∀ evs ∈ ([[.ctrl .init false], [.did .init, .ctrl (.setBitmode 0 .reset) false],
          [.did .init, .did (.setBitmode 0 .reset), .ctrl (.setBitmode 0 .syncBb) false]] : List (List Event)),
        s.gives evs →
        ∃ b : Bridge,
          exec .devOpen s
            = .next (s.ran evs { s.ste with dev := .failed, mux := .unknown } b s.bufs (.failed (.transport .control))))

/-- R95, R161 and R162: `DEV_OPEN` on BB; the drain's errors are ignored, and the sample rate is unprogrammed (assumption
28). Whatever was pending before, a drain that succeeds leaves no response pending (assumption 22). -/
def Obligations.OpenOnBb : Prop :=
  ∀ (s : State) (y : List Byte) (ok : Bool), s.cfg.chip = .bb → s.ste.dev ≠ .opened →
    let evs : List Event := [.did .init, .did (.setBitmode 0 .reset), .did (.setBitmode 0 .syncBb), .flush y ok]
    s.gives evs →
    ∃ b : Bridge,
      exec .devOpen s
          = .next (s.ran evs
              { dev := .opened, mux := .syncBb, grpD := ⟨0, 0, false⟩, grpC := s.ste.grpC, usingSpi := false,
                usingI2c := false, clk := none, spi := none, i2c := none, bbdir := 0 } b s.bufs .done)
        ∧ b.dirD = 0 ∧ b.rate = none ∧ (ok = true → b.queue = [] ∧ b.sent = [])

/-- R136: `DEV_CLOSE` from OPEN or FAILED emits nothing and leaves every field of `S` at the reset value R27 gives it; from
CLOSED it raises `E_NOT_OPEN`. The fields R27 leaves unspecified are not spoken of. -/
def Obligations.CloseResets : Prop :=
  ∀ s : State,
    (s.ste.dev ≠ .closed →
      ∃ t : Ste,
        exec .devClose s = .next (s.ran [] t s.bridge s.bufs .done) ∧ t.dev = .closed ∧ t.mux = .unknown
          ∧ t.grpD.indet = true ∧ t.grpC.indet = true ∧ t.usingSpi = false ∧ t.usingI2c = false ∧ t.clk = none
          ∧ t.spi = none ∧ t.i2c = none)
      ∧ (s.ste.dev = .closed → exec .devClose s = .next (s.ran [] s.ste s.bridge s.bufs (.failed .notOpen)))

/-- R27: the reset values it gives. -/
def Obligations.ResetValues : Prop :=
  State.reset.ste.dev = .closed ∧ State.reset.ste.mux = .unknown ∧ State.reset.ste.grpD.indet = true
    ∧ State.reset.ste.grpC.indet = true ∧ State.reset.ste.usingSpi = false ∧ State.reset.ste.usingI2c = false
    ∧ State.reset.ste.clk = none ∧ State.reset.ste.spi = none ∧ State.reset.ste.i2c = none
    ∧ State.reset.trace = [] ∧ State.reset.results = []

/-! ### Clock selection -/

/-- R90: whenever `CLOCK_SELECT(f)` succeeds, the rate it returns is at most `f` and is the largest rate at most `f` of the
two bases and the divisors 1 to 65536; and it raises `E_CLOCK_TOO_LOW` exactly when none of those rates is at most `f`
(R89). -/
def Obligations.ClockIsOptimal : Prop :=
  ∀ (s : State) (f : Rat), 5 ∣ s.cfg.fBaseHi → 1 ≤ s.cfg.fBaseHi →
    (∀ a t, clockSelect f s = .ok a t →
      a ≤ f ∧ (∃ low d, 1 ≤ d ∧ d ≤ 65536 ∧ a = clockActual s.cfg low d)
        ∧ ∀ low d, 1 ≤ d → d ≤ 65536 → clockActual s.cfg low d ≤ f → clockActual s.cfg low d ≤ a)
      ∧ ((∃ t, clockSelect f s = .err .clockTooLow t) ↔ ∀ low d, 1 ≤ d → d ≤ 65536 → f < clockActual s.cfg low d)

/-! ### SPI -/

/-- R51 and R102: an accepted mode word is reproduced by its fields, and the accepted mode words are those with no
half-duplex bit and no bit above 4. -/
def Obligations.ModeRoundTrip : Prop :=
  ∀ mode : Nat,
    match decomposeMode mode with
    | .ok m => composeMode m = mode ∧ mode.testBit 2 = false ∧ mode < 32
    | .error e => (e = .halfDuplex ∧ mode.testBit 2 = true) ∨ (e = .modeUnknown ∧ mode.testBit 2 = false ∧ 32 ≤ mode)

/-- R100, R114 and R144: the checks of `SPI_CONNECT` on an open device, in their order. The first that fails is the
request's error, with no event and nothing changed. -/
def Obligations.ConnectChecksInOrder : Prop :=
  ∀ (s : State) (f mode bits : Nat) (e : Err), s.ste.dev = .opened →
    let ceiling :=
      match s.cfg.chip with
      | .cmd => s.cfg.fBaseHi
      | .bb => s.cfg.fMaxBb
    (if bits % 8 ≠ 0 then some Err.bitsNotMultiple8
      else if bits ≠ 8 then some Err.bitsUnsupported
      else if min f ceiling < s.cfg.fMin then some Err.freqTooLow
      else if mode.testBit 2 then some Err.halfDuplex
      else if 32 ≤ mode then some Err.modeUnknown
      else if s.ste.usingI2c then some Err.inUse
      else none) = some e →
    exec (.spiConnect f mode bits) s = .next (s.ran [] s.ste s.bridge s.bufs (.failed e))

/-- R100, R101, R92 and R166: `SPI_CONNECT` on CMD. The clock is programmed exactly when the cache is NONE or the request is
below it; then the idle line state is written, and last the engine is claimed. -/
def Obligations.ConnectOnCmd : Prop :=
  ∀ (s : State) (f mode : Nat) (low : Bool) (d : Nat),
    let fr := min f s.cfg.fBaseHi
    let c : SpiConn := ⟨mode.testBit 0, mode.testBit 1, mode.testBit 3, mode.testBit 4, fr⟩
    let idle := spiIdle c s.ste.grpD
    let dir := spiDir c s.ste.grpD
    let lower : Bool :=
      match s.ste.clk with
      | none => true
      | some k => decide (mkRat fr 1 < k)
    let evs : List Event :=
      (if lower then
        [.sent [if low then 0x8B else 0x8A, 0x86, BitVec.ofNat 8 ((d - 1) % 256), BitVec.ofNat 8 ((d - 1) / 256 % 256)]]
      else []) ++ [.sent [0x8D, 0x9E, 0x00, 0x00, 0x80, idle, dir]]
    s.cfg.chip = .cmd → s.ste.dev = .opened → mode < 32 → mode.testBit 2 = false → s.cfg.fMin ≤ fr →
    s.ste.usingI2c = false → clockPlan s.cfg (mkRat fr 1) = some (low, d) → s.gives evs →
    ∃ b : Bridge,
      exec (.spiConnect f mode 8) s
          = .next (s.ran evs
              { s.ste with
                clk := if lower then some (mkRat fr 1) else s.ste.clk
                grpD := { dir := dir, val := idle, indet := false }
                spi := some c
                usingSpi := true } b s.bufs .done)
        ∧ (s.ste.mux = .cmdStream → s.bridge.aligned = true →
          b = { s.bridge with
                lowBase := if lower then low else s.bridge.lowBase
                divisor := if lower then d else s.bridge.divisor
                threePhase := false, odD := 0, odC := 0, latchD := idle, dirD := dir })

/-- R114: `SPI_CONNECT` on BB: the sample rate where the clock must go down, the direction where it differs, and one
idle sample with its returned sample. That the idle set clears `indet` is assumption 8. -/
def Obligations.ConnectOnBb : Prop :=
  ∀ (s : State) (f mode : Nat) (x : Byte),
    let fr := min f s.cfg.fMaxBb
    let c : SpiConn := ⟨mode.testBit 0, mode.testBit 1, mode.testBit 3, mode.testBit 4, fr⟩
    let idle := spiIdle c s.ste.grpD
    let dir := spiDir c s.ste.grpD
    let lower : Bool :=
      match s.ste.clk with
      | none => true
      | some k => decide (mkRat fr 1 < k)
    let evs : List Event :=
      (if lower then [.did (.setRate (2 * fr))] else [])
        ++ (if dir = s.ste.bbdir then [] else [.did (.setBitmode dir .syncBb)]) ++ [.sent [idle], .got [x]]
    s.cfg.chip = .bb → s.ste.dev = .opened → s.ste.mux = .syncBb → s.ste.bbdir = s.ste.grpD.dir → mode < 32 →
    mode.testBit 2 = false → s.cfg.fMin ≤ fr → s.ste.usingI2c = false → s.gives evs →
    exec (.spiConnect f mode 8) s
      = .next (s.ran evs
          { s.ste with
            clk := if lower then some (mkRat fr 1) else s.ste.clk
            bbdir := dir
            grpD := { dir := dir, val := idle, indet := false }
            spi := some c
            usingSpi := true }
          { s.bridge with
            rate := if lower then some (2 * fr) else s.bridge.rate
            dirD := if dir = s.ste.bbdir then s.bridge.dirD else dir
            latchD := idle
            sent := (s.bridge.sent ++ [Resp.sample]).drop 1 } s.bufs .done)

/-- R53, R103 and R112: the packets of a list are checked in order before any I/O, and the first error of the first invalid
packet is the request's. SPI_TX raises the two errors its packet can have. -/
def Obligations.PacketsCheckedFirst : Prop :=
  ∀ (s : State) (c : SpiConn) (e : Err), s.ste.dev = .opened → s.ste.spi = some c →
    (∀ (good : List Packet) (bad : Packet) (rest : List Packet), (∀ p ∈ good, packetError p = none) →
      (if bad.keepCs then some Err.keepCs
        else if bad.bits % 8 ≠ 0 then some Err.bitsNotMultiple8
        else if bad.bits ≠ 8 then some Err.bitsUnsupported
        else if bad.w = [] ∧ bad.r = [] then some Err.emptyPacket
        else if bad.w ≠ [] ∧ bad.r ≠ [] ∧ bad.w.length ≠ bad.r.length then some Err.lenMismatch
        else none) = some e →
      exec (.spiTxPackets (good ++ bad :: rest)) s
        = .next (s.ran [] s.ste s.bridge ((good ++ bad :: rest).map (·.r)) (.failed e)))
      ∧ ∀ w r : List Byte,
        (if w = [] ∧ r = [] then some Err.emptyPacket
          else if w ≠ [] ∧ r ≠ [] ∧ w.length ≠ r.length then some Err.lenMismatch
          else none) = some e →
        exec (.spiTx w r) s = .next (s.ran [] s.ste s.bridge [r] (.failed e))

/-- R107, R109, R112 and R32: `SPI_TX` on CMD runs the pipelined schedule with the caller's own bytes, stores response
byte `i` at `r[i]`, returns the read buffer, and leaves group D idle. From a bridge that understands commands, the bridge has
the idle line state, no response left over and the packet's bits shifted out. The log of shifted bits, and that the latches are
kept after the data shift that ends a NO_CS packet, are the model's choice (assumption 10). -/
def Obligations.TransferOnCmd : Prop :=
  ∀ (s : State) (c : SpiConn) (w r resp : List Byte),
    let p : Packet := { w := w, r := r, keepCs := false, bits := 8 }
    let out := if hasR p then resp else []
    let evs := packetEvents c s.ste.grpD s.cfg.pChunk p resp
    s.cfg.chip = .cmd → s.ste.dev = .opened → s.ste.spi = some c → packetError p = none → 1 ≤ s.cfg.pChunk →
    (hasR p = true → resp.length = r.length) → s.gives evs →
    ∃ b : Bridge,
      exec (.spiTx w r) s
          = .next (s.ran evs { s.ste with grpD := spiIdleGroup c s.ste.grpD } b [out] ⟨none, .bytes out⟩)
        ∧ (s.ste.mux = .cmdStream → s.bridge.aligned = true → b = packetBridge c s.ste.grpD p s.bridge)

/-- R103 and R105: every packet of a list is framed and transferred on its own, in order, and the request returns all the
read buffers. The empty list emits nothing. A bridge that understands commands is left as after each packet in turn: the log
of shifted bits in it, and the latches kept after the data shift that ends a NO_CS packet, are the model's choice
(assumption 10). -/
def Obligations.PacketListOnCmd : Prop :=
  ∀ (s : State) (c : SpiConn) (ps : List (Packet × List Byte)),
    let evs := ps.flatMap fun x => packetEvents c s.ste.grpD s.cfg.pChunk x.1 x.2
    let outs := ps.map fun x => if hasR x.1 then x.2 else []
    s.cfg.chip = .cmd → s.ste.dev = .opened → s.ste.spi = some c → 1 ≤ s.cfg.pChunk →
    (∀ x ∈ ps, packetError x.1 = none ∧ (hasR x.1 = true → x.2.length = x.1.r.length)) → s.gives evs →
    ∃ b : Bridge,
      exec (.spiTxPackets (ps.map (·.1))) s
          = .next (s.ran evs (if ps = [] then s.ste else { s.ste with grpD := spiIdleGroup c s.ste.grpD }) b outs
              ⟨none, .bufs outs⟩)
        ∧ (s.ste.mux = .cmdStream → s.bridge.aligned = true →
          b = ps.foldl (fun b x => packetBridge c s.ste.grpD x.1 b) s.bridge)

/-- R109 with R104 and R106: whatever `P_CHUNK` is, the bytes a successful `SPI_TX` on CMD writes are the header, the chunks
and the trailer, and the bytes it reads are its result, one for each byte of the read buffer, and stored there. -/
def Obligations.PacketStreams : Prop :=
  ∀ (s t : State) (c : SpiConn) (w r x : List Byte),
    let g := s.ste.grpD
    let mask : Byte := 0x01 ||| 0x02 ||| (if c.nocs then 0 else 0x08)
    let dir : Byte := (g.dir ||| mask) &&& ~~~0x04
    let idle : Byte := (g.val &&& ~~~mask) ||| (if c.cpol then 0x01 else 0) ||| (if c.nocs then 0 else 0x08)
    let assert : Byte := idle &&& ~~~(if c.nocs then 0 else 0x08 : Byte)
    let n := max w.length r.length
    let op : Byte :=
      0x10 ||| (if c.cpol = c.cpha then 0x01 else 0) ||| (if c.lsbf then 0x08 else 0)
        ||| (if r = [] then 0 else 0x20 ||| (if c.cpol = c.cpha then 0 else 0x04))
    let chunk (k : Nat) : List Byte :=
      let len := min s.cfg.pChunk (n - k * s.cfg.pChunk)
      [op, BitVec.ofNat 8 ((len - 1) % 256), BitVec.ofNat 8 ((len - 1) / 256 % 256)]
        ++ ((if w = [] then r else w).drop (k * s.cfg.pChunk)).take len ++ (if r = [] then [] else [0x87])
    s.cfg.chip = .cmd → s.ste.spi = some c → 1 ≤ s.cfg.pChunk → exec (.spiTx w r) s = .next t →
    t.results = s.results ++ [⟨none, .bytes x⟩] →
    ∃ evs : List Event, t.trace = s.trace ++ evs
      ∧ commandStream evs
        = [0x80, idle, dir] ++ (if c.nocs then [] else [0x80, assert, dir])
          ++ (List.range ((n + s.cfg.pChunk - 1) / s.cfg.pChunk)).flatMap chunk
          ++ (if c.nocs then [] else [0x80, idle, dir])
      ∧ responseStream evs = x ∧ x.length = r.length ∧ t.bufs = [x]

/-- R115, R117 and R112: on BB every packet is one burst (the frame is R116's, statement BbFrameRuns), written whole and read
back whole. Bit `k` in shift order of byte `j` of its read buffer is the MISO bit of the returned sample of index
`2 + 16j + 2k + 1 + SYNC_LAG`, placed at `k` for LSB first and at `7 - k` otherwise. `SPI_TX` is the list of its one packet. -/
def Obligations.TransferOnBb : Prop :=
  ∀ (s : State) (c : SpiConn) (ps : List (Packet × List Byte × List Byte)),
    let size (p : Packet) : Nat := 16 * max p.w.length p.r.length + 4
    let evs := ps.flatMap fun x => burstEvents c s.ste.grpD x.1 x.2.1
    let outs := ps.map fun x => x.2.2
    let idle := spiIdle c s.ste.grpD
    let total := (ps.map fun x => size x.1).sum
    let ends (v : Reply) : Host.Outcome State Fault Refusal :=
      .next (s.ran evs (if ps = [] then s.ste else { s.ste with grpD := { s.ste.grpD with val := idle } })
        { s.bridge with
          latchD := if ps = [] then s.bridge.latchD else idle
          sent := (s.bridge.sent ++ List.replicate total Resp.sample).drop total } outs ⟨none, v⟩)
    s.cfg.chip = .bb → s.ste.dev = .opened → s.ste.mux = .syncBb → s.ste.spi = some c →
    (∀ x ∈ ps, packetError x.1 = none ∧ x.2.1.length = size x.1 ∧ x.2.2.length = x.1.r.length
      ∧ ∀ j k, j < x.1.r.length → k < 8 →
        (x.2.2.getD j 0).getLsbD (if c.lsbf then k else 7 - k)
          = (x.2.1.getD (2 + 16 * j + 2 * k + 1 + s.cfg.syncLag) 0).getLsbD 2) →
    s.gives evs →
    exec (.spiTxPackets (ps.map (·.1))) s = ends (.bufs outs)
      ∧ ∀ w r resp out, ps = [({ w := w, r := r, keepCs := false, bits := 8 }, resp, out)] →
        exec (.spiTx w r) s = ends (.bytes out)

/-- R118: decimating the loop-back of a packet's frame gives the packet's bytes back, for every byte list, every mode,
both bit orders and both lags. -/
def Obligations.BbExactInverse : Prop :=
  ∀ (c : SpiConn) (g : Group) (p : Packet) (lag : Nat) (resp : List Byte),
    p.w ≠ [] → p.r.length = p.w.length → lag ≤ 1 → resp.length = (bbFrameOf c g p).length →
    (∀ i, lag ≤ i → i < resp.length → (resp.getD i 0).getLsbD 2 = ((bbFrameOf c g p).getD (i - lag) 0).getLsbD 1) →
    (List.range p.w.length).map (bbDecim c lag resp) = p.w

/-- R113: `SPI_CLOSE` emits nothing, drops the connection and the claim, and keeps the cache. -/
def Obligations.SpiCloseReleases : Prop :=
  ∀ s : State, s.ste.dev = .opened →
    (s.ste.spi ≠ none →
      exec .spiClose s = .next (s.ran [] { s.ste with spi := none, usingSpi := false } s.bridge s.bufs .done))
      ∧ (s.ste.spi = none → exec .spiClose s = .next (s.ran [] s.ste s.bridge s.bufs (.failed .notConnected)))

/-! ### I²C -/

/-- R123: `I2C_OPEN(FLOAT)` on CMD with no claim held programs the clock for 3/2 of the default rate, turns three-phase
clocking and open drain on, idles the bus, and claims it. -/
def Obligations.I2cOpens : Prop :=
  ∀ (s : State) (low : Bool) (d : Nat),
    let target : Rat := mkRat (3 * s.cfg.i2cRate) 2
    let g := i2cIdleGroup s.ste.grpD
    let evs : List Event :=
      [.sent [if low then 0x8B else 0x8A, 0x86, BitVec.ofNat 8 ((d - 1) % 256), BitVec.ofNat 8 ((d - 1) / 256 % 256)],
        .sent [0x8C, 0x9E, 0x03, 0x00, 0x80, g.val, g.dir]]
    s.cfg.chip = .cmd → s.ste.dev = .opened → s.ste.usingSpi = false → s.ste.usingI2c = false →
    clockPlan s.cfg target = some (low, d) → s.gives evs →
    ∃ b : Bridge,
      exec (.i2cOpen .float) s
          = .next (s.ran evs
              { s.ste with clk := some target, grpD := g, i2c := some ⟨s.cfg.i2cRate⟩, usingI2c := true } b s.bufs .done)
        ∧ (s.ste.mux = .cmdStream → s.bridge.aligned = true →
          b = { s.bridge with
                lowBase := low, divisor := d, threePhase := true, odD := 3, odC := 0, latchD := g.val, dirD := g.dir })

/-- R124: `I2C_SET_SPEED(r)` programs the clock for 3/2 of `r` and stores the rate; a rate no divisor reaches raises
`E_CLOCK_TOO_LOW` with no event and nothing changed. -/
def Obligations.I2cSpeedSets : Prop :=
  ∀ (s : State) (r : Nat) (bus : I2cBus), s.cfg.chip = .cmd → s.ste.dev = .opened → s.ste.i2c = some bus →
    let target : Rat := mkRat (3 * r) 2
    match clockPlan s.cfg target with
    | some (low, d) =>
      let evs : List Event :=
        [.sent [if low then 0x8B else 0x8A, 0x86, BitVec.ofNat 8 ((d - 1) % 256), BitVec.ofNat 8 ((d - 1) / 256 % 256)]]
      s.gives evs →
      ∃ b : Bridge,
        exec (.i2cSetSpeed r) s
            = .next (s.ran evs { s.ste with clk := some target, i2c := some ⟨r⟩ } b s.bufs .done)
          ∧ (s.ste.mux = .cmdStream → s.bridge.aligned = true → b = { s.bridge with lowBase := low, divisor := d })
    | none => exec (.i2cSetSpeed r) s = .next (s.ran [] s.ste s.bridge s.bufs (.failed .clockTooLow))

/-- R129: `I2C_TX` on an open bus whose write bytes are all acknowledged: START, the address and the write bytes, the
read bytes with ACK for all but the last, STOP and IDLE. It returns the bytes read and leaves the bus idle. From a bridge that
understands commands, the bytes sent and the acknowledges given are the bits shifted out (assumption 10), the pins are idle,
and no response is left over. -/
def Obligations.I2cTransfers : Prop :=
  ∀ (s : State) (bus : I2cBus) (addr : Nat) (w r xs acks : List Byte),
    let g := s.ste.grpD
    let evs : List Event :=
      [.sent (encodeAll (i2cStartSeq s.cfg.k g))]
        ++ ackedEvents g ((BitVec.ofNat 8 addr :: w).zip acks) ++ readEvents g xs ++ stopEvents s.cfg.k g
    s.cfg.chip = .cmd → s.ste.dev = .opened → s.ste.i2c = some bus → addr ≤ 0xFF → acks.length = w.length + 1 →
    (∀ a ∈ acks, a.getLsbD 0 = false) → xs.length = r.length → s.gives evs →
    ∃ b : Bridge,
      exec (.i2cTx addr w r) s = .next (s.ran evs { s.ste with grpD := i2cIdleGroup g } b [xs] ⟨none, .bytes xs⟩)
        ∧ (s.ste.mux = .cmdStream → s.bridge.aligned = true →
          b = { s.bridge with
                latchD := i2cVal g true true
                dirD := i2cDir g
                wire := s.bridge.wire
                  ++ (BitVec.ofNat 8 addr :: w).flatMap (fun x => [7, 6, 5, 4, 3, 2, 1, 0].map x.getLsbD)
                  ++ (List.range r.length).map fun j => decide (j + 1 = r.length)
                queue := []
                sent := (s.bridge.sent ++ s.bridge.queue ++ List.replicate (w.length + 1) (Resp.bits 1)
                  ++ List.replicate r.length Resp.data).drop (w.length + 1 + r.length) })

/-- R130 and R149: a NAK on write byte `i` (the address is byte 0) sends no later write byte and reads nothing: STOP and
IDLE follow at once, `E_NAK` is returned, and the bus, the claim and the cache are as an idle bus has them. So is a bridge
that understands commands; its log of shifted bits is assumption 10. -/
def Obligations.NakAborts : Prop :=
  ∀ (s : State) (bus : I2cBus) (addr : Nat) (w r acks : List Byte) (nak : Byte) (sent : List Byte) (b : Byte)
    (unsent : List Byte),
    let g := s.ste.grpD
    let evs : List Event :=
      [.sent (encodeAll (i2cStartSeq s.cfg.k g))] ++ ackedEvents g (sent.zip acks) ++ ackedEvents g [(b, nak)]
        ++ stopEvents s.cfg.k g
    s.cfg.chip = .cmd → s.ste.dev = .opened → s.ste.i2c = some bus → addr ≤ 0xFF →
    BitVec.ofNat 8 addr :: w = sent ++ b :: unsent → acks.length = sent.length →
    (∀ a ∈ acks, a.getLsbD 0 = false) → nak.getLsbD 0 = true → s.gives evs →
    ∃ br : Bridge,
      exec (.i2cTx addr w r) s = .next (s.ran evs { s.ste with grpD := i2cIdleGroup g } br [r] (.failed .nak))
        ∧ (s.ste.mux = .cmdStream → s.bridge.aligned = true →
          br = { s.bridge with
                latchD := i2cVal g true true
                dirD := i2cDir g
                wire := s.bridge.wire ++ (sent ++ [b]).flatMap fun x => [7, 6, 5, 4, 3, 2, 1, 0].map x.getLsbD
                queue := []
                sent := (s.bridge.sent ++ s.bridge.queue ++ List.replicate (sent.length + 1) (Resp.bits 1)).drop
                  (sent.length + 1) })

/-- R125: `I2C_CLOSE` releases the claim before its one write, so the claim is released whether or not it succeeds. R147
(a): after a failed write group D is indeterminate. -/
def Obligations.I2cCloses : Prop :=
  ∀ (s : State) (bus : I2cBus), s.cfg.chip = .cmd → s.ste.dev = .opened → s.ste.i2c = some bus →
    (s.gives [.sent [0x8D, 0x9E, 0x00, 0x00]] →
      ∃ b : Bridge,
        exec .i2cClose s
            = .next (s.ran [.sent [0x8D, 0x9E, 0x00, 0x00]] { s.ste with i2c := none, usingI2c := false } b s.bufs .done)
          ∧ (s.ste.mux = .cmdStream → s.bridge.aligned = true →
            b = { s.bridge with threePhase := false, odD := 0, odC := 0 }))
      ∧ ∀ n, s.gives [.wr [0x8D, 0x9E, 0x00, 0x00] n false] →
        ∃ b : Bridge,
          exec .i2cClose s
            = .next (s.ran [.wr [0x8D, 0x9E, 0x00, 0x00] n false]
                { s.ste with i2c := none, usingI2c := false, grpD := { s.ste.grpD with indet := true } } b s.bufs
                (.failed (.transport (.write n))))

/-! ### The facade -/

/-- R73, R138 and R144: which error a pin request on an open device raises before any I/O: group C on BB, then a claimed
pin. SPI claims D0 to D2, and D3 unless NO_CS; I²C claims D0 to D2; group C is never claimed. -/
def Obligations.PinChecks : Prop :=
  ∀ (s : State) (g : GroupId) (i : Fin 8) (level : Bool) (e : Err), s.ste.dev = .opened →
    (if s.cfg.chip = .bb ∧ g = .c then some Err.notSupported
      else if g = .d ∧ ((s.ste.usingSpi = true ∧ (i.val ≤ 2 ∨ (i.val = 3 ∧ ¬∃ c ∈ s.ste.spi, c.nocs = true)))
        ∨ (s.ste.usingI2c = true ∧ i.val ≤ 2)) then some Err.pinBusy
      else none) = some e →
    ∀ q ∈ [Instr.gpioOut g i level, .gpioIn g i, .gpioRead g i],
      exec q s = .next (s.ran [] s.ste s.bridge s.bufs (.failed e))

/-- R139 and R140: on CMD a pin request on an unclaimed pin is one group set, with the pin's bits changed in the cached
bytes and every other bit kept. -/
def Obligations.PinSetOnCmd : Prop :=
  ∀ (s : State) (g : GroupId) (i : Fin 8) (level : Bool), s.ready → s.ste.dev = .opened → claimed s.ste g i = false →
    let old := s.ste.grp g
    let op : Byte := if g = .d then 0x80 else 0x82
    let ends (val dir : Byte) : Host.Outcome State Fault Refusal :=
      .next (s.ran [.sent [op, val, dir]] (s.ste.setGrp g { dir := dir, val := val, indet := false })
        (match g with
          | .d => { s.bridge with latchD := val, dirD := dir }
          | .c => { s.bridge with latchC := val, dirC := dir }) s.bufs .done)
    let bit : Byte := 1 <<< i.val
    let val := if level then old.val ||| bit else old.val &&& ~~~bit
    (s.gives [.sent [op, val, old.dir ||| bit]] → exec (.gpioOut g i level) s = ends val (old.dir ||| bit))
      ∧ (s.gives [.sent [op, old.val, old.dir &&& ~~~bit]] → exec (.gpioIn g i) s = ends old.val (old.dir &&& ~~~bit))

/-- R98, R139 and R140 on BB: the direction where it differs, then one sample and its returned sample. That the set clears
`indet` is assumption 8. -/
def Obligations.PinSetOnBb : Prop :=
  ∀ (s : State) (i : Fin 8) (level : Bool) (x : Byte), s.cfg.chip = .bb → s.ste.dev = .opened → s.ste.mux = .syncBb →
    s.ste.bbdir = s.ste.grpD.dir → claimed s.ste .d i = false →
    let bit : Byte := 1 <<< i.val
    let evs (val dir : Byte) : List Event :=
      (if dir = s.ste.bbdir then [] else [.did (.setBitmode dir .syncBb)]) ++ [.sent [val], .got [x]]
    let runs (q : Instr) (val dir : Byte) : Prop :=
      s.gives (evs val dir) →
        exec q s
          = .next (s.ran (evs val dir)
              { s.ste with bbdir := dir, grpD := { dir := dir, val := val, indet := false } }
              { s.bridge with
                dirD := if dir = s.ste.bbdir then s.bridge.dirD else dir
                latchD := val
                sent := (s.bridge.sent ++ [Resp.sample]).drop 1 } s.bufs .done)
    runs (.gpioOut .d i level) (if level then s.ste.grpD.val ||| bit else s.ste.grpD.val &&& ~~~bit)
        (s.ste.grpD.dir ||| bit)
      ∧ runs (.gpioIn .d i) s.ste.grpD.val (s.ste.grpD.dir &&& ~~~bit)

/-- R141 and R99: `GPIO_READ` returns the pin's bit of the one response byte and leaves the STE as it was: on CMD after a
group read and SEND_IMMEDIATE, on BB after the cached sample. The bridge is left with that one response taken. -/
def Obligations.PinReads : Prop :=
  ∀ (s : State) (g : GroupId) (i : Fin 8) (x : Byte), s.ste.dev = .opened → claimed s.ste g i = false →
    (s.cfg.chip = .bb → g = .d) →
    let bytes : List Byte :=
      match s.cfg.chip, g with
      | .cmd, .d => [0x81, 0x87]
      | .cmd, .c => [0x83, 0x87]
      | .bb, _ => [s.ste.grpD.val]
    s.gives [.sent bytes, .got [x]] →
    ∃ b : Bridge,
      exec (.gpioRead g i) s = .next (s.ran [.sent bytes, .got [x]] s.ste b s.bufs ⟨none, .level (x.getLsbD i.val)⟩)
        ∧ (s.ready → b = { s.bridge with sent := (s.bridge.sent ++ s.bridge.queue ++ [Resp.pins g]).drop 1, queue := [] })
        ∧ (s.cfg.chip = .bb → s.ste.mux = .syncBb →
          b = { s.bridge with latchD := s.ste.grpD.val, sent := (s.bridge.sent ++ [Resp.sample]).drop 1 })

/-- R134: after a successful claim by one engine the other engine's claim fails with `E_IN_USE`. -/
def Obligations.ClaimsExclude : Prop :=
  ∀ (s t : State) (f mode : Nat), s.cfg.chip = .cmd →
    (exec (.spiConnect f mode 8) s = .next t → t.results.getLast? = some .done →
      exec (.i2cOpen .float) t = .next (t.ran [] t.ste t.bridge t.bufs (.failed .inUse)))
      ∧ (exec (.i2cOpen .float) s = .next t → t.results.getLast? = some .done → mode < 32 → mode.testBit 2 = false →
        t.cfg.fMin ≤ min f t.cfg.fBaseHi →
        exec (.spiConnect f mode 8) t = .next (t.ran [] t.ste t.bridge t.bufs (.failed .inUse)))

/-! ### Errors -/

/-- R15, R56, R94 to R96, R123 and R144, the checks before any I/O: unless the device is open every request but `DEV_OPEN`
and `DEV_CLOSE` raises `E_NOT_OPEN`; `DEV_OPEN` on an open device raises `E_IN_USE`; on BB every I²C request raises
`E_NOT_SUPPORTED`; a request that needs an open bus raises `E_NOT_CONNECTED` without one; `I2C_OPEN` refuses PULLUP, and
then a held claim; an address above 0xFF is refused. None emits an event or changes the STE, and the read buffers are the
request's own as the caller gave them, or those that were there. -/
def Obligations.ChecksBeforeIo : Prop :=
  ∀ (s : State) (i : Instr),
    let raises (e : Err) : Prop := exec i s = .next (s.ran [] s.ste s.bridge (ownBufs i s.bufs) (.failed e))
    (i.isRequest = true → i ≠ .devOpen → i ≠ .devClose → s.ste.dev ≠ .opened → raises .notOpen)
      ∧ (s.ste.dev = .opened →
        (i = .devOpen → raises .inUse)
          ∧ (s.cfg.chip = .bb → (∃ pull rate addr w r, i ∈ [Instr.i2cOpen pull, .i2cSetSpeed rate, .i2cTx addr w r, .i2cClose]) →
            raises .notSupported)
          ∧ (s.ste.spi = none → (∃ w r pkts, i ∈ [Instr.spiTx w r, .spiTxPackets pkts, .spiClose]) → raises .notConnected)
          ∧ (s.cfg.chip = .cmd → s.ste.i2c = none →
            (∃ rate addr w r, i ∈ [Instr.i2cSetSpeed rate, .i2cTx addr w r, .i2cClose]) → raises .notConnected)
          ∧ (s.cfg.chip = .cmd → i = .i2cOpen .pullup → raises .pullupUnsupported)
          ∧ (s.cfg.chip = .cmd → i = .i2cOpen .float → s.ste.usingSpi = true ∨ s.ste.usingI2c = true → raises .inUse)
          ∧ (s.cfg.chip = .cmd → s.ste.i2c ≠ none → (∃ addr w r, i = .i2cTx addr w r ∧ 0xFF < addr) → raises .addrRange))

/-- R143 and R145: a request that ends with an error of the class "protocol violation" has emitted no event and changed no
field of `S`. -/
def Obligations.ValidationLeavesNoTrace : Prop :=
  ∀ (i : Instr) (s t : State) (e : Err), i.isRequest = true → exec i s = .next t →
    t.results = s.results ++ [.failed e] → e.class = .protocolViolation →
    t.trace = s.trace ∧ t.ste = s.ste ∧ t.bridge = s.bridge ∧ t.env = s.env

/-- R146, R147, R148, R111 and R31: what a transport error in a request other than `DEV_OPEN` leaves. The failed event is the
request's last, and no earlier one failed. (a) The group is indeterminate. (b) `S.clk` is NONE if the failed event was
CLOCK_SELECT's write or a SET_RATE, the request's target if such an event succeeded before, and else as it was. (c) `val` and
`dir` of each group are those of the last group set among the commands the accepted writes carried; on BB `val` is the last
sample accepted, and `dir` and `S.bbdir` the last direction commanded. (d) The claims, the connections and the device are as
they were, but for the claim `I2C_CLOSE` released. The read buffers hold the bytes already stored, and else the caller's. -/
def Obligations.TransportErrorEffects : Prop :=
  ∀ (i : Instr) (s t : State) (e : Err), i.isRequest = true → i ≠ .devOpen → exec i s = .next t →
    t.results = s.results ++ [.failed e] → e.class = .transport →
    (∃ (evs : List Event) (last : Event), t.trace = s.trace ++ evs ++ [last] ∧ last.error = some e
      ∧ (∀ x ∈ evs, x.error = none)
      ∧ (t.ste.clk
        = if isClockEvent last then none else if evs.any isClockEvent then clockTarget s.cfg i else s.ste.clk)
      ∧ (s.cfg.chip = .cmd → s.cfg.ok = true →
        ∃ cs : List Instr, (∀ x ∈ cs, x.emittable = true) ∧ commandStream evs = encodeAll cs
          ∧ (t.ste.grpD.val, t.ste.grpD.dir) = ((trackSets cs s.ste).grpD.val, (trackSets cs s.ste).grpD.dir)
          ∧ (t.ste.grpC.val, t.ste.grpC.dir) = ((trackSets cs s.ste).grpC.val, (trackSets cs s.ste).grpC.dir))
      ∧ (s.cfg.chip = .bb →
        t.ste.grpD.val = (commandStream evs).getLast?.getD s.ste.grpD.val
          ∧ t.ste.grpD.dir = (directions evs).getLast?.getD s.ste.grpD.dir
          ∧ t.ste.bbdir = (directions evs).getLast?.getD s.ste.bbdir)
      ∧ t.bufs = storedBufs s i evs)
      ∧ (match i with
        | .gpioOut .c _ _ | .gpioIn .c _ | .gpioRead .c _ => t.ste.grpC.indet = true
        | _ => t.ste.grpD.indet = true)
      ∧ t.ste.dev = s.ste.dev ∧ t.ste.usingSpi = s.ste.usingSpi ∧ t.ste.spi = s.ste.spi
      ∧ (i ≠ .i2cClose → t.ste.usingI2c = s.ste.usingI2c ∧ t.ste.i2c = s.ste.i2c)
      ∧ (i = .i2cClose → t.ste.usingI2c = false ∧ t.ste.i2c = none)

/-- R143, R146 and R12: every request answers a next state with exactly one more result; the trace is only added to, and
the parameters, the calls and the bench are as before. That every request ends rests on finite scripts (assumption 5), which
is the fairness of R170. -/
def Obligations.OneResultEach : Prop :=
  ∀ (i : Instr) (s : State), i.isRequest = true →
    ∃ t r evs, exec i s = .next t ∧ t.results = s.results ++ [r] ∧ t.trace = s.trace ++ evs ∧ t.cfg = s.cfg
      ∧ t.calls = s.calls ∧ t.bench = s.bench ∧ t.env = s.env.after evs ∧ s.gives evs

/-- R97: after an accepted write, each group's cache holds the operands of the last set of that group in it, and a group
with none is as before. -/
def Obligations.CacheTracksLastSet : Prop :=
  ∀ (cs : List Instr) (t : Ste),
    (∀ pre val dir post, cs = pre ++ .setBitsLow val dir :: post → (∀ v d, Instr.setBitsLow v d ∉ post) →
      (trackSets cs t).grpD = { dir := dir, val := val, indet := false })
      ∧ (∀ pre val dir post, cs = pre ++ .setBitsHigh val dir :: post → (∀ v d, Instr.setBitsHigh v d ∉ post) →
        (trackSets cs t).grpC = { dir := dir, val := val, indet := false })
      ∧ ((∀ v d, Instr.setBitsLow v d ∉ cs) → (trackSets cs t).grpD = t.grpD)
      ∧ ((∀ v d, Instr.setBitsHigh v d ∉ cs) → (trackSets cs t).grpC = t.grpC)

/-! ### Transport -/

/-- R80: a write is sent in transfers of 1 to `XFER_MAX` bytes; when every transfer is accepted in full, they are the bytes
in order; and it succeeds only with every byte accepted. R82: a read never gets more than it asks for, and succeeds exactly
with all of it. -/
def Obligations.TransportLoops : Prop :=
  (∀ (xfer : Nat) (as : List (Nat × Bool)) (bs : List Byte), 1 ≤ xfer →
    let o := usbWriteAll xfer as bs
    (∀ x ∈ o.calls, 1 ≤ x.length ∧ x.length ≤ xfer) ∧ o.n ≤ bs.length ∧ (o.ok = true → o.n = bs.length)
      ∧ ((∀ a ∈ as, a.2 = true ∧ xfer ≤ a.1) → o.ok = true ∧ o.calls.flatten = bs))
    ∧ ∀ (ra : Nat) (tail : List Byte) (ts : List Turn) (want : Nat),
      let o := usbReadAll ra tail ts want
      o.got.length ≤ want ∧ (o.status = .ok ↔ o.got.length = want)

/-! ### The machine -/

/-- One step runs the instruction it finds: the first command on the bench, decoded, with the bytes after it left there;
or, with an empty bench, the host's next request, taken from the calls. Bytes that do not decode are refused (R70), and so is
every step from parameters that break R8. The bench, the calls and their order are the model's own (assumption 1), and that
nothing changes where there is nothing to run is assumption 23. -/
def Obligations.StepRunsDecoded : Prop :=
  ∀ s : State,
    (s.cfg.ok = false → step s = .refused .badParams)
      ∧ (s.cfg.ok = true →
        (∀ bs more rest i, s.cfg.chip = .cmd → s.bench = .bytes bs :: more → decode bs = .ok (i, rest) →
          step s = exec i { s with bench := if rest = [] then more else .bytes rest :: more })
          ∧ (∀ bs more e, s.cfg.chip = .cmd → s.bench = .bytes bs :: more → decode bs = .error e →
            step s = .refused (.undecodable e))
          ∧ (∀ bs more rest i, s.cfg.chip = .bb → s.bench = .bytes bs :: more → decodeSample bs = .ok (i, rest) →
            step s = exec i { s with bench := if rest = [] then more else .bytes rest :: more })
          ∧ (∀ bs more e, s.cfg.chip = .bb → s.bench = .bytes bs :: more → decodeSample bs = .error e →
            step s = .refused (.undecodable e))
          ∧ (∀ bs more rest i, s.bench = .response bs :: more → decodeResponse bs = .ok (i, rest) →
            step s = exec i { s with bench := if rest = [] then more else .response rest :: more })
          ∧ (∀ bs more e, s.bench = .response bs :: more → decodeResponse bs = .error e →
            step s = .refused (.undecodable e))
          ∧ (∀ i more, s.bench = .named i :: more → step s = exec i { s with bench := more })
          ∧ (∀ i more, s.bench = [] → s.calls = i :: more → i.isRequest = true →
            step s = exec i { s with calls := more })
          ∧ (∀ i more, s.bench = [] → s.calls = i :: more → i.isRequest = false → step s = .refused .notARequest)
          ∧ (s.bench = [] → s.calls = [] → step s = .next s))

/-- R28: every request maps a legal state to a legal state, whether it succeeds or fails. -/
def Obligations.LegalKept : Prop :=
  ∀ s t : State, s.hostOnly → s.ste.legal s.cfg.chip → step s = .next t → t.hostOnly ∧ t.ste.legal t.cfg.chip

/-- R21, R24 and R119: every stored rate stays positive, no connection's frequency goes below the floor (R100), and the clock
cache stays an upper bound of the bridge's serial clock on CMD, and on BB is half its sample rate, whatever else failed before.
R21 excepts a bridge whose CLOCK_SELECT met a transport error. That the bound holds again once a later CLOCK_SELECT succeeds,
although the parse position may be unknown, is the model's choice, and so is what else a failed write leaves (assumption 9). -/
def Obligations.ClockCacheKept : Prop :=
  ∀ s t : State, s.hostOnly → s.ste.ratesOk s.cfg → s.clockBounded → step s = .next t →
    t.hostOnly ∧ t.ste.ratesOk t.cfg ∧ t.clockBounded

/-- R17 and R18: the group caches keep reflecting the pins, unless they say they may not. On CMD this speaks of a bridge whose
parse position is known, and after a NO_CS packet, which ends with a data shift and no group set, it rests on assumption 10. On
BB it rests on assumption 8. -/
def Obligations.PinsTrackedKept : Prop :=
  ∀ s t : State, s.hostOnly → s.ste.legal s.cfg.chip → s.pinsTracked → step s = .next t →
    t.hostOnly ∧ t.ste.legal t.cfg.chip ∧ t.pinsTracked

/-- A machine newly constructed with any parameters meets every invariant (R27, R159), and `State.reset` is the one of the
default parameters. -/
def Obligations.ResetInvariants : Prop :=
  (∀ p : Params,
    let s := State.resetWith p
    s.hostOnly ∧ s.ste.legal s.cfg.chip ∧ s.ste.ratesOk s.cfg ∧ s.clockBounded ∧ s.pinsTracked)
    ∧ State.reset = State.resetWith Params.default

/-- R43 and R162: on an open device, a request that ends with no transport error leaves no response byte pending, so the
response stream stays in step with the command stream. -/
def Obligations.ResponsesStayInStep : Prop :=
  ∀ (i : Instr) (s t : State) (r : Result), i.isRequest = true → s.ste.dev = .opened → s.ste.legal s.cfg.chip →
    s.inStep → exec i s = .next t → t.results = s.results ++ [r] → (∀ e ∈ r.err, e.class ≠ .transport) → t.inStep

/-- R25: no decision of the STE depends on the bridge's state: from two states that differ in it alone, a step ends the
same way, and the two next states differ in it alone. -/
def Obligations.BridgeNotRead : Prop :=
  ∀ (s : State) (b : Bridge),
    match step s, step { s with bridge := b } with
    | .next t, .next t' => ∃ b', t' = { t with bridge := b' }
    | .refused r, .refused r' => r = r'
    | _, _ => False

end
end

