-- ==== Sys2Proof/Laws/State.lean ====
section
/-! SUPPORT. What each named update of the state does to each field, by definition: no later proof unfolds a record
update. -/

namespace Sys2Proof.Machine

/-! `State.withSte` -/

@[simp] theorem State.withSte_cfg (s : State) (f : Ste → Ste) : (s.withSte f).cfg = s.cfg := rfl
@[simp] theorem State.withSte_ste (s : State) (f : Ste → Ste) : (s.withSte f).ste = f s.ste := rfl
@[simp] theorem State.withSte_bufs (s : State) (f : Ste → Ste) : (s.withSte f).bufs = s.bufs := rfl
@[simp] theorem State.withSte_bridge (s : State) (f : Ste → Ste) : (s.withSte f).bridge = s.bridge := rfl
@[simp] theorem State.withSte_env (s : State) (f : Ste → Ste) : (s.withSte f).env = s.env := rfl
@[simp] theorem State.withSte_calls (s : State) (f : Ste → Ste) : (s.withSte f).calls = s.calls := rfl
@[simp] theorem State.withSte_bench (s : State) (f : Ste → Ste) : (s.withSte f).bench = s.bench := rfl
@[simp] theorem State.withSte_trace (s : State) (f : Ste → Ste) : (s.withSte f).trace = s.trace := rfl
@[simp] theorem State.withSte_results (s : State) (f : Ste → Ste) : (s.withSte f).results = s.results := rfl

/-! `State.withBridge` -/

@[simp] theorem State.withBridge_cfg (s : State) (f : Bridge → Bridge) : (s.withBridge f).cfg = s.cfg := rfl
@[simp] theorem State.withBridge_ste (s : State) (f : Bridge → Bridge) : (s.withBridge f).ste = s.ste := rfl
@[simp] theorem State.withBridge_bufs (s : State) (f : Bridge → Bridge) : (s.withBridge f).bufs = s.bufs := rfl
@[simp] theorem State.withBridge_bridge (s : State) (f : Bridge → Bridge) : (s.withBridge f).bridge = f s.bridge := rfl
@[simp] theorem State.withBridge_env (s : State) (f : Bridge → Bridge) : (s.withBridge f).env = s.env := rfl
@[simp] theorem State.withBridge_calls (s : State) (f : Bridge → Bridge) : (s.withBridge f).calls = s.calls := rfl
@[simp] theorem State.withBridge_bench (s : State) (f : Bridge → Bridge) : (s.withBridge f).bench = s.bench := rfl
@[simp] theorem State.withBridge_trace (s : State) (f : Bridge → Bridge) : (s.withBridge f).trace = s.trace := rfl
@[simp] theorem State.withBridge_results (s : State) (f : Bridge → Bridge) : (s.withBridge f).results = s.results := rfl

/-! `State.addResult` -/

@[simp] theorem State.addResult_cfg (s : State) (r : Result) : (s.addResult r).cfg = s.cfg := rfl
@[simp] theorem State.addResult_ste (s : State) (r : Result) : (s.addResult r).ste = s.ste := rfl
@[simp] theorem State.addResult_bufs (s : State) (r : Result) : (s.addResult r).bufs = s.bufs := rfl
@[simp] theorem State.addResult_bridge (s : State) (r : Result) : (s.addResult r).bridge = s.bridge := rfl
@[simp] theorem State.addResult_env (s : State) (r : Result) : (s.addResult r).env = s.env := rfl
@[simp] theorem State.addResult_calls (s : State) (r : Result) : (s.addResult r).calls = s.calls := rfl
@[simp] theorem State.addResult_bench (s : State) (r : Result) : (s.addResult r).bench = s.bench := rfl
@[simp] theorem State.addResult_trace (s : State) (r : Result) : (s.addResult r).trace = s.trace := rfl
@[simp] theorem State.addResult_results (s : State) (r : Result) : (s.addResult r).results = s.results ++ [r] := rfl

/-! `State.loadBufs` -/

@[simp] theorem State.loadBufs_cfg (s : State) (rs : List (List Byte)) : (s.loadBufs rs).cfg = s.cfg := rfl
@[simp] theorem State.loadBufs_ste (s : State) (rs : List (List Byte)) : (s.loadBufs rs).ste = s.ste := rfl
@[simp] theorem State.loadBufs_bufs (s : State) (rs : List (List Byte)) : (s.loadBufs rs).bufs = rs := rfl
@[simp] theorem State.loadBufs_bridge (s : State) (rs : List (List Byte)) : (s.loadBufs rs).bridge = s.bridge := rfl
@[simp] theorem State.loadBufs_env (s : State) (rs : List (List Byte)) : (s.loadBufs rs).env = s.env := rfl
@[simp] theorem State.loadBufs_calls (s : State) (rs : List (List Byte)) : (s.loadBufs rs).calls = s.calls := rfl
@[simp] theorem State.loadBufs_bench (s : State) (rs : List (List Byte)) : (s.loadBufs rs).bench = s.bench := rfl
@[simp] theorem State.loadBufs_trace (s : State) (rs : List (List Byte)) : (s.loadBufs rs).trace = s.trace := rfl
@[simp] theorem State.loadBufs_results (s : State) (rs : List (List Byte)) : (s.loadBufs rs).results = s.results := rfl

/-! `State.writeBuf` -/

@[simp] theorem State.writeBuf_cfg (s : State) (j i : Nat) (v : List Byte) : (s.writeBuf j i v).cfg = s.cfg := rfl
@[simp] theorem State.writeBuf_ste (s : State) (j i : Nat) (v : List Byte) : (s.writeBuf j i v).ste = s.ste := rfl
@[simp] theorem State.writeBuf_bufs (s : State) (j i : Nat) (v : List Byte) : (s.writeBuf j i v).bufs = s.bufs.set j (memWrite (s.buf j) i v) := rfl
@[simp] theorem State.writeBuf_bridge (s : State) (j i : Nat) (v : List Byte) : (s.writeBuf j i v).bridge = s.bridge := rfl
@[simp] theorem State.writeBuf_env (s : State) (j i : Nat) (v : List Byte) : (s.writeBuf j i v).env = s.env := rfl
@[simp] theorem State.writeBuf_calls (s : State) (j i : Nat) (v : List Byte) : (s.writeBuf j i v).calls = s.calls := rfl
@[simp] theorem State.writeBuf_bench (s : State) (j i : Nat) (v : List Byte) : (s.writeBuf j i v).bench = s.bench := rfl
@[simp] theorem State.writeBuf_trace (s : State) (j i : Nat) (v : List Byte) : (s.writeBuf j i v).trace = s.trace := rfl
@[simp] theorem State.writeBuf_results (s : State) (j i : Nat) (v : List Byte) : (s.writeBuf j i v).results = s.results := rfl

/-! `State.wrote` -/

@[simp] theorem State.wrote_cfg (s : State) (bs : List Byte) : (s.wrote bs).cfg = s.cfg := rfl
@[simp] theorem State.wrote_ste (s : State) (bs : List Byte) : (s.wrote bs).ste = s.ste := rfl
@[simp] theorem State.wrote_bufs (s : State) (bs : List Byte) : (s.wrote bs).bufs = s.bufs := rfl
@[simp] theorem State.wrote_bridge (s : State) (bs : List Byte) : (s.wrote bs).bridge = s.bridge := rfl
@[simp] theorem State.wrote_env (s : State) (bs : List Byte) : (s.wrote bs).env = s.env.nextWr.2 := rfl
@[simp] theorem State.wrote_calls (s : State) (bs : List Byte) : (s.wrote bs).calls = s.calls := rfl
@[simp] theorem State.wrote_bench (s : State) (bs : List Byte) : (s.wrote bs).bench = s.bench := rfl
@[simp] theorem State.wrote_trace (s : State) (bs : List Byte) : (s.wrote bs).trace = s.trace ++ [.wr bs (s.wrOut bs).n (s.wrOut bs).ok] := rfl
@[simp] theorem State.wrote_results (s : State) (bs : List Byte) : (s.wrote bs).results = s.results := rfl

/-! `State.didRead` -/

@[simp] theorem State.didRead_cfg (s : State) (n : Nat) : (s.didRead n).cfg = s.cfg := rfl
@[simp] theorem State.didRead_ste (s : State) (n : Nat) : (s.didRead n).ste = s.ste := rfl
@[simp] theorem State.didRead_bufs (s : State) (n : Nat) : (s.didRead n).bufs = s.bufs := rfl
@[simp] theorem State.didRead_bridge (s : State) (n : Nat) : (s.didRead n).bridge = s.bridge.consume (s.rdOut n).got.length := rfl
@[simp] theorem State.didRead_env (s : State) (n : Nat) : (s.didRead n).env = s.env.nextRd.2 := rfl
@[simp] theorem State.didRead_calls (s : State) (n : Nat) : (s.didRead n).calls = s.calls := rfl
@[simp] theorem State.didRead_bench (s : State) (n : Nat) : (s.didRead n).bench = s.bench := rfl
@[simp] theorem State.didRead_trace (s : State) (n : Nat) : (s.didRead n).trace = s.trace ++ [.rd n (s.rdOut n).got (s.rdOut n).status] := rfl
@[simp] theorem State.didRead_results (s : State) (n : Nat) : (s.didRead n).results = s.results := rfl

/-! `State.went` -/

@[simp] theorem State.went_cfg (s : State) (evs : List Event) (t : Ste) (b : Bridge) (rs : List (List Byte)) : (s.went evs t b rs).cfg = s.cfg := rfl
@[simp] theorem State.went_ste (s : State) (evs : List Event) (t : Ste) (b : Bridge) (rs : List (List Byte)) : (s.went evs t b rs).ste = t := rfl
@[simp] theorem State.went_bufs (s : State) (evs : List Event) (t : Ste) (b : Bridge) (rs : List (List Byte)) : (s.went evs t b rs).bufs = rs := rfl
@[simp] theorem State.went_bridge (s : State) (evs : List Event) (t : Ste) (b : Bridge) (rs : List (List Byte)) : (s.went evs t b rs).bridge = b := rfl
@[simp] theorem State.went_env (s : State) (evs : List Event) (t : Ste) (b : Bridge) (rs : List (List Byte)) : (s.went evs t b rs).env = s.env.after evs := rfl
@[simp] theorem State.went_calls (s : State) (evs : List Event) (t : Ste) (b : Bridge) (rs : List (List Byte)) : (s.went evs t b rs).calls = s.calls := rfl
@[simp] theorem State.went_bench (s : State) (evs : List Event) (t : Ste) (b : Bridge) (rs : List (List Byte)) : (s.went evs t b rs).bench = s.bench := rfl
@[simp] theorem State.went_trace (s : State) (evs : List Event) (t : Ste) (b : Bridge) (rs : List (List Byte)) : (s.went evs t b rs).trace = s.trace ++ evs := rfl
@[simp] theorem State.went_results (s : State) (evs : List Event) (t : Ste) (b : Bridge) (rs : List (List Byte)) : (s.went evs t b rs).results = s.results := rfl

/-! `State.ran` -/

@[simp] theorem State.ran_cfg (s : State) (evs : List Event) (t : Ste) (b : Bridge) (rs : List (List Byte)) (r : Result) : (s.ran evs t b rs r).cfg = s.cfg := rfl
@[simp] theorem State.ran_ste (s : State) (evs : List Event) (t : Ste) (b : Bridge) (rs : List (List Byte)) (r : Result) : (s.ran evs t b rs r).ste = t := rfl
@[simp] theorem State.ran_bufs (s : State) (evs : List Event) (t : Ste) (b : Bridge) (rs : List (List Byte)) (r : Result) : (s.ran evs t b rs r).bufs = rs := rfl
@[simp] theorem State.ran_bridge (s : State) (evs : List Event) (t : Ste) (b : Bridge) (rs : List (List Byte)) (r : Result) : (s.ran evs t b rs r).bridge = b := rfl
@[simp] theorem State.ran_env (s : State) (evs : List Event) (t : Ste) (b : Bridge) (rs : List (List Byte)) (r : Result) : (s.ran evs t b rs r).env = s.env.after evs := rfl
@[simp] theorem State.ran_calls (s : State) (evs : List Event) (t : Ste) (b : Bridge) (rs : List (List Byte)) (r : Result) : (s.ran evs t b rs r).calls = s.calls := rfl
@[simp] theorem State.ran_bench (s : State) (evs : List Event) (t : Ste) (b : Bridge) (rs : List (List Byte)) (r : Result) : (s.ran evs t b rs r).bench = s.bench := rfl
@[simp] theorem State.ran_trace (s : State) (evs : List Event) (t : Ste) (b : Bridge) (rs : List (List Byte)) (r : Result) : (s.ran evs t b rs r).trace = s.trace ++ evs := rfl
@[simp] theorem State.ran_results (s : State) (evs : List Event) (t : Ste) (b : Bridge) (rs : List (List Byte)) (r : Result) : (s.ran evs t b rs r).results = s.results ++ [r] := rfl

/-! The group cache. -/

@[simp] theorem Ste.grp_d (t : Ste) : t.grp .d = t.grpD := rfl
@[simp] theorem Ste.grp_c (t : Ste) : t.grp .c = t.grpC := rfl
@[simp] theorem Ste.setGrp_d (t : Ste) (v : Group) : t.setGrp .d v = { t with grpD := v } := rfl
@[simp] theorem Ste.setGrp_c (t : Ste) (v : Group) : t.setGrp .c v = { t with grpC := v } := rfl
@[simp] theorem Ste.setIndet_d (t : Ste) (b : Bool) : t.setIndet .d b = { t with grpD := { t.grpD with indet := b } } := rfl
@[simp] theorem Ste.setIndet_c (t : Ste) (b : Bool) : t.setIndet .c b = { t with grpC := { t.grpC with indet := b } } := rfl

/-! The bridge. -/

@[simp] theorem Bridge.havoc_aligned (b : Bridge) : b.havoc.aligned = false := rfl
@[simp] theorem Bridge.havoc_fresh (b : Bridge) : b.havoc.fresh = b.fresh + 1 := rfl
@[simp] theorem Bridge.broken_aligned (p : Params) (mux : Mux) (cs : List Instr) (b : Bridge) : (Bridge.broken p mux cs b).aligned = false := rfl
@[simp] theorem Bridge.brokenSamples_aligned (b : Bridge) : b.brokenSamples.aligned = b.aligned := rfl
@[simp] theorem Bridge.brokenSamples_rate (b : Bridge) : b.brokenSamples.rate = b.rate := rfl
@[simp] theorem Bridge.brokenSamples_clock (p : Params) (b : Bridge) : b.brokenSamples.clock p = b.clock p := rfl
@[simp] theorem Bridge.controlLost_init (b : Bridge) : b.controlLost .init = b := rfl
@[simp] theorem Bridge.controlLost_setBitmode_rate (b : Bridge) (m : Byte) (q : BitMode) : (b.controlLost (.setBitmode m q)).rate = b.rate := rfl
@[simp] theorem Bridge.controlLost_setBitmode_clock (p : Params) (b : Bridge) (m : Byte) (q : BitMode) : (b.controlLost (.setBitmode m q)).clock p = b.clock p := rfl
@[simp] theorem Bridge.controlLost_setRate_clock (p : Params) (b : Bridge) (r : Nat) : (b.controlLost (.setRate r)).clock p = b.clock p := rfl
@[simp] theorem Bridge.drained_sent (m : Mux) (n : Nat) (b : Bridge) : (b.drained m n true).sent = [] := rfl
@[simp] theorem Bridge.drained_queue_bb (n : Nat) (b : Bridge) : (b.drained .syncBb n true).queue = [] := rfl
@[simp] theorem Bridge.drained_aligned (m : Mux) (n : Nat) (ok : Bool) (b : Bridge) : (b.drained m n ok).aligned = b.aligned := by cases ok <;> rfl
@[simp] theorem Bridge.lostPins_aligned (g : GroupId) (b : Bridge) : (b.lostPins g).aligned = b.aligned := by cases g <;> rfl
@[simp] theorem Bridge.lostPins_rate (g : GroupId) (b : Bridge) : (b.lostPins g).rate = b.rate := by cases g <;> rfl
@[simp] theorem Bridge.lostPins_clock (p : Params) (g : GroupId) (b : Bridge) : (b.lostPins g).clock p = b.clock p := by cases g <;> rfl
@[simp] theorem Bridge.lostPins_lowBase (g : GroupId) (b : Bridge) : (b.lostPins g).lowBase = b.lowBase := by cases g <;> rfl
@[simp] theorem Bridge.lostPins_divisor (g : GroupId) (b : Bridge) : (b.lostPins g).divisor = b.divisor := by cases g <;> rfl
@[simp] theorem Bridge.lostPins_queue (g : GroupId) (b : Bridge) : (b.lostPins g).queue = b.queue := by cases g <;> rfl
@[simp] theorem Bridge.lostPins_sent (g : GroupId) (b : Bridge) : (b.lostPins g).sent = b.sent := by cases g <;> rfl
@[simp] theorem Bridge.lostPins_d_latchC (b : Bridge) : (b.lostPins .d).latchC = b.latchC := rfl
@[simp] theorem Bridge.lostPins_d_dirC (b : Bridge) : (b.lostPins .d).dirC = b.dirC := rfl
@[simp] theorem Bridge.lostPins_c_latchD (b : Bridge) : (b.lostPins .c).latchD = b.latchD := rfl
@[simp] theorem Bridge.lostPins_c_dirD (b : Bridge) : (b.lostPins .c).dirD = b.dirD := rfl
@[simp] theorem Bridge.resync_aligned (b : Bridge) : b.resync.aligned = true := rfl
@[simp] theorem Bridge.resync_queue (b : Bridge) : b.resync.queue = [] := rfl
@[simp] theorem Bridge.resync_sent (b : Bridge) : b.resync.sent = [] := rfl
@[simp] theorem Bridge.control_init (b : Bridge) : b.control .init = b := rfl
@[simp] theorem Bridge.control_reset (b : Bridge) : b.control (.setBitmode 0 .reset) = b := rfl
@[simp] theorem Bridge.control_cmdStream (b : Bridge) : b.control (.setBitmode 0 .cmdStream) = b := rfl

/-! Requests in progress. -/

@[simp] theorem Res.bind_ok {α β : Type} (a : α) (s : State) (f : α → State → Res β) : (Res.ok a s).bind f = f a s := rfl
@[simp] theorem Res.bind_err {α β : Type} (e : Err) (s : State) (f : α → State → Res β) : (Res.err e s).bind f = .err e s := rfl
@[simp] theorem Res.ignore_ok {α : Type} (a : α) (s : State) : (Res.ok a s).ignore = .ok () s := rfl
@[simp] theorem Res.ignore_err {α : Type} (e : Err) (s : State) : (Res.err e s : Res α).ignore = .ok () s := rfl
@[simp] theorem Res.state_ok {α : Type} (a : α) (s : State) : (Res.ok a s).state = s := rfl
@[simp] theorem Res.state_err {α : Type} (e : Err) (s : State) : (Res.err e s : Res α).state = s := rfl
@[simp] theorem Res.reply_ok {α : Type} (a : α) (s : State) (f : α → State → Reply) : (Res.ok a s).reply f = .ok (f a s) s := rfl
@[simp] theorem Res.reply_err {α : Type} (e : Err) (s : State) (f : α → State → Reply) : (Res.err e s : Res α).reply f = .err e s := rfl
@[simp] theorem Res.orFailed_ok {α : Type} (a : α) (s : State) : (Res.ok a s).orFailed = .ok a s := rfl
@[simp] theorem Res.orFailed_err {α : Type} (e : Err) (s : State) : (Res.err e s : Res α).orFailed = .err e (s.withSte Ste.openFailed) := rfl
@[simp] theorem finish_ok (g : GroupId) (v : Reply) (s : State) : finish g (.ok v s) = s.addResult ⟨none, v⟩ := rfl
@[simp] theorem finish_err (g : GroupId) (e : Err) (s : State) : finish g (.err e s) = s.raise g e := rfl
@[simp] theorem finishOpen_ok (s : State) : finishOpen (.ok () s) = s.addResult ⟨none, .unit⟩ := rfl
@[simp] theorem finishOpen_err (e : Err) (s : State) : finishOpen (.err e s) = s.addResult ⟨some e, .unit⟩ := rfl

/-! The reset state. -/

@[simp] theorem State.reset_cfg : State.reset.cfg = Params.default := rfl
@[simp] theorem State.reset_ste : State.reset.ste = Ste.reset := rfl
@[simp] theorem State.reset_bridge : State.reset.bridge = Bridge.reset := rfl
@[simp] theorem State.reset_bench : State.reset.bench = [] := rfl
@[simp] theorem State.reset_calls : State.reset.calls = [] := rfl

end Sys2Proof.Machine
end

