-- ==== Sys2Proof/Laws/Ops.lean ====
section
/-! SUPPORT. One lemma for each shared operation that says what it can do: the transport, the four logical events, the
end of a request. A proof about a request cites these and unfolds none of them. -/

namespace Sys2Proof.Machine

/-! ### Draws and events -/

@[simp] theorem Env.after_nil (e : Env) : e.after [] = e := by cases e; rfl

theorem Env.after_append (e : Env) (xs ys : List Event) : e.after (xs ++ ys) = (e.after xs).after ys := by
  induction xs generalizing e with
  | nil => simp
  | cons x xs ih => cases x <;> simp [Env.after, ih]

theorem Env.gives_append (p : Params) (e : Env) (xs ys : List Event) :
    e.gives p (xs ++ ys) = true ↔ e.gives p xs = true ∧ (e.after xs).gives p ys = true := by
  induction xs generalizing e with
  | nil => simp [Env.gives]
  | cons x xs ih => cases x <;> simp [Env.gives, Env.after, ih, and_assoc]

/-- Events given one after the other: the second run starts where the first ended. -/
theorem State.gives_append (s : State) (xs ys : List Event) (t : Ste) (b : Bridge) (rs : List (List Byte)) :
    s.gives (xs ++ ys) ↔ s.gives xs ∧ (s.went xs t b rs).gives ys := by
  simp [State.gives, Env.gives_append]

theorem State.gives_cons (s : State) (x : Event) (ys : List Event) (t : Ste) (b : Bridge) (rs : List (List Byte)) :
    s.gives (x :: ys) ↔ s.gives [x] ∧ (s.went [x] t b rs).gives ys := by
  simpa using s.gives_append [x] ys t b rs

theorem State.went_went (s : State) (xs ys : List Event) (t t' : Ste) (b b' : Bridge) (rs rs' : List (List Byte)) :
    (s.went xs t b rs).went ys t' b' rs' = s.went (xs ++ ys) t' b' rs' := by
  simp [State.went, Env.after_append, List.append_assoc]

theorem State.went_nil (s : State) : s.went [] s.ste s.bridge s.bufs = s := by cases s; simp [State.went]

theorem State.went_withSte (s : State) (xs : List Event) (t : Ste) (b : Bridge) (rs : List (List Byte)) (f : Ste → Ste) :
    (s.went xs t b rs).withSte f = s.went xs (f t) b rs := rfl

theorem State.went_withBridge (s : State) (xs : List Event) (t : Ste) (b : Bridge) (rs : List (List Byte))
    (f : Bridge → Bridge) : (s.went xs t b rs).withBridge f = s.went xs t (f b) rs := rfl

theorem State.went_writeBuf (s : State) (xs : List Event) (t : Ste) (b : Bridge) (rs : List (List Byte)) (j i : Nat)
    (v : List Byte) : (s.went xs t b rs).writeBuf j i v = s.went xs t b (rs.set j (memWrite (rs.getD j []) i v)) := rfl

theorem State.went_addResult (s : State) (xs : List Event) (t : Ste) (b : Bridge) (rs : List (List Byte)) (r : Result) :
    (s.went xs t b rs).addResult r = s.ran xs t b rs r := rfl

/-! ### The transport -/

/-- A write reports success exactly when all its bytes were accepted in the end, and never more than it has (R80). -/
theorem usbWriteAll_spec (xfer : Nat) (as : List (Nat × Bool)) (bs : List Byte) :
    (usbWriteAll xfer as bs).n ≤ bs.length ∧ ((usbWriteAll xfer as bs).ok = true → (usbWriteAll xfer as bs).n = bs.length) := by
  induction as generalizing bs with
  | nil => cases bs <;> simp [usbWriteAll]
  | cons a as ih =>
    obtain ⟨k, ok⟩ := a
    cases bs with
    | nil => simp [usbWriteAll]
    | cons b bs =>
      have h := ih ((b :: bs).drop (min k (min xfer (b :: bs).length)))
      have hl : ((b :: bs).drop (min k (min xfer (b :: bs).length))).length
          = (b :: bs).length - min k (min xfer (b :: bs).length) := List.length_drop
      have hle : min k (min xfer (b :: bs).length) ≤ (b :: bs).length := by omega
      cases ok with
      | true =>
        simp only [usbWriteAll, if_true]
        rw [hl] at h
        exact ⟨by omega, fun hk => by have := h.2 hk; omega⟩
      | false =>
        simp only [usbWriteAll]
        exact ⟨hle, fun hk => by simp at hk⟩

theorem readAvailable_length {t : Turn} {len : Nat} {bs : List Byte} (h : readAvailable t len = some bs) :
    bs.length ≤ len := by
  unfold readAvailable at h
  split at h
  · cases h
  · split at h
    · cases h; simp
    · split at h
      · cases h
      · cases h
        simp only [List.length_take]
        omega

/-- A read never gets more than it asked for, and reports success exactly when it got all of it (R82). -/
theorem usbReadAll_spec (ra : Nat) (tail : List Byte) (ts : List Turn) (want : Nat) :
    (usbReadAll ra tail ts want).got.length ≤ want
      ∧ ((usbReadAll ra tail ts want).status = .ok → (usbReadAll ra tail ts want).got.length = want) := by
  induction ts generalizing want with
  | nil =>
    cases want with
    | zero => simp [usbReadAll]
    | succ w =>
      simp only [usbReadAll, List.length_take]
      refine ⟨by omega, fun h => ?_⟩
      split at h
      · omega
      · cases h
  | cons t ts ih =>
    cases want with
    | zero => simp [usbReadAll]
    | succ w =>
      simp only [usbReadAll]
      split
      · simp
      · split
        · simp
        · rename_i bs hbs
          have hl := readAvailable_length hbs
          have h := ih (w + 1 - bs.length)
          simp only [List.length_append]
          exact ⟨by omega, fun hk => by have := h.2 hk; omega⟩

theorem State.gives_rd_length {s : State} {n : Nat} {x : List Byte} (h : s.gives [.rd n x .ok]) : x.length = n := by
  simp only [State.gives, Env.gives, Bool.and_true, decide_eq_true_eq] at h
  have := usbReadAll_spec s.cfg.raChunk s.env.nextRd.1.tail s.env.nextRd.1.turns n
  rw [h] at this
  exact this.2 rfl

/-! ### What the bridge answers to an opcode -/

/-- The bridge's answer to an opcode: a probe is echoed, an opcode it is known to recognise is not, and any other byte
leaves a free state (R68, R69). -/
theorem Bridge.badCmd_cases (op : Byte) (b : Bridge) :
    ((op = 0xAA ∨ op = 0xAB) ∧ b.badCmd op = b.answer [.marker, .echo op])
      ∨ (isRecognised op = true ∧ b.badCmd op = b)
      ∨ (¬(op = 0xAA ∨ op = 0xAB) ∧ isRecognised op = false ∧ b.badCmd op = b.havoc) := by
  by_cases h : op = OPC.probe1 ∨ op = OPC.probe2
  · exact .inl ⟨h, if_pos h⟩
  · cases hr : isRecognised op
    · exact .inr (.inr ⟨h, rfl, (if_neg h).trans (by simp [hr])⟩)
    · exact .inr (.inl ⟨rfl, (if_neg h).trans (by simp [hr])⟩)

/-! ### What a failure leaves of the bridge's clock and rate -/

/-- Where the bridge understands commands, it does each of them in order. -/
theorem Bridge.feed_ready (p : Params) {mux : Mux} (cs : List Instr) {b : Bridge} (h : b.understands mux) :
    Bridge.feed p mux cs b = cs.foldl Bridge.command b := if_pos h

/-- Bytes the bridge does not take as commands keep the sample rate, lose the parse position, and raise the serial clock no
higher than the commands would have (R21). -/
theorem Bridge.garbled_spec (p : Params) (b goal : Bridge) :
    (b.garbled p goal).clock p ≤ goal.clock p ∧ (b.garbled p goal).rate = b.rate
      ∧ (b.garbled p goal).aligned = false := by
  unfold Bridge.garbled
  split
  · exact ⟨‹_›, rfl, rfl⟩
  · exact ⟨le_refl _, rfl, rfl⟩

theorem Bridge.loosen_rate (free b : Bridge) (i : Instr) : (Bridge.loosen free b i).rate = b.rate := by
  unfold Bridge.loosen
  split
  · rfl
  · split <;> rfl

theorem Bridge.foldl_loosen_rate (free : Bridge) (cs : List Instr) (b : Bridge) :
    (cs.foldl (Bridge.loosen free) b).rate = b.rate := by
  induction cs generalizing b with
  | nil => rfl
  | cons i cs ih => rw [List.foldl_cons, ih, Bridge.loosen_rate]

/-- A failed write of commands keeps the sample rate and loses the parse position (R46, R119). -/
theorem Bridge.broken_spec (p : Params) (mux : Mux) (cs : List Instr) (b : Bridge) :
    (Bridge.broken p mux cs b).rate = b.rate ∧ (Bridge.broken p mux cs b).aligned = false := by
  refine ⟨?_, rfl⟩
  simp only [Bridge.broken, Bridge.foldl_loosen_rate]
  split
  · rfl
  · exact (Bridge.garbled_spec p b b).2.1

theorem Bridge.loosen_clock (p : Params) (free b : Bridge) {i : Instr} (h : setsClock i = false) :
    (Bridge.loosen free b i).clock p = b.clock p := by
  unfold Bridge.loosen
  split
  · rfl
  · split
    all_goals first | rfl | exact Bool.noConfusion h

/-- A failed write without a clock command raises the serial clock no higher than it was (R21). -/
theorem Bridge.broken_clock (p : Params) (mux : Mux) {cs : List Instr} (b : Bridge) (h : ∀ i ∈ cs, setsClock i = false) :
    (Bridge.broken p mux cs b).clock p ≤ b.clock p := by
  have hf : ∀ (cs : List Instr) (x : Bridge), (∀ i ∈ cs, setsClock i = false) →
      (cs.foldl (Bridge.loosen b.havoc) x).clock p = x.clock p := by
    intro cs
    induction cs with
    | nil => intro x _; rfl
    | cons i cs ih =>
      intro x h
      rw [List.foldl_cons, ih _ fun j hj => h j (List.mem_cons_of_mem _ hj),
        Bridge.loosen_clock p _ _ (h i List.mem_cons_self)]
  have hk := hf cs (if b.understands mux then b else b.garbled p b) h
  show (cs.foldl (Bridge.loosen b.havoc) (if b.understands mux then b else b.garbled p b)).clock p ≤ _
  rw [hk]
  split
  · exact le_refl _
  · exact (Bridge.garbled_spec p b b).1

/-! ### What raising an error does -/

/-- Raising an error appends its result. A transport error besides marks the group indeterminate and, on CMD, loses its pins;
any other error does nothing else (R146, R147, U9). -/
theorem State.raise_spec (s : State) (g : GroupId) (e : Err) :
    ∃ b : Bridge,
      s.raise g e
          = { s with
              ste := if e.class = .transport then s.ste.setIndet g true else s.ste
              bridge := b
              results := s.results ++ [⟨some e, .unit⟩] }
        ∧ (e.class ≠ .transport ∨ s.cfg.chip = .bb → b = s.bridge)
        ∧ (e.class = .transport → s.cfg.chip = .cmd → b = s.bridge.lostPins g) := by
  by_cases h : e.class = .transport
  · cases hc : s.cfg.chip
    · exact ⟨s.bridge.lostPins g, by simp [State.raise, State.struck, Err.isTransport, h, hc, State.withSte, State.withBridge,
        State.addResult], by simp [h], fun _ _ => rfl⟩
    · exact ⟨s.bridge, by simp [State.raise, State.struck, Err.isTransport, h, hc, State.withSte, State.withBridge,
        State.addResult], fun _ => rfl, by simp⟩
  · exact ⟨s.bridge, by simp [State.raise, Err.isTransport, h, State.addResult], fun _ => rfl, fun h' => absurd h' h⟩

/-! ### The four logical events -/

/-- A write of commands that is accepted (R84, R97). -/
theorem emitCmds_sent {s : State} {cs : List Instr} {bs : List Byte} (hc : s.cfg.chip = .cmd) (hb : encodeAll cs = bs)
    (h : s.gives [.sent bs]) :
    emitCmds cs s = .ok () (s.went [.sent bs] (trackSets cs s.ste) (Bridge.feed s.cfg s.ste.mux cs s.bridge) s.bufs) := by
  subst hb
  simp only [State.gives, Env.gives, Bool.and_true, Bool.and_eq_true, decide_eq_true_eq] at h
  simp [emitCmds, hc, State.wrOut, h.2, h.1, State.went, State.wrote, State.withSte, State.withBridge, Env.after]

/-- A write of commands that fails (R84, R97). -/
theorem emitCmds_fails {s : State} {cs : List Instr} {bs : List Byte} {n : Nat} (hc : s.cfg.chip = .cmd)
    (hb : encodeAll cs = bs) (h : s.gives [.wr bs n false]) :
    emitCmds cs s
      = .err (.transport (.write n))
          (s.went [.wr bs n false] (trackFails cs s.ste) (Bridge.broken s.cfg s.ste.mux cs s.bridge) s.bufs) := by
  subst hb
  simp only [State.gives, Env.gives, Bool.and_true, Bool.and_eq_true, decide_eq_true_eq] at h
  simp [emitCmds, hc, State.wrOut, h.2, h.1, State.went, State.wrote, State.withSte, State.withBridge, Env.after]

/-- A write of samples that is accepted (R75, R97). -/
theorem emitSamples_sent {s : State} {bs : List Byte} (h : s.gives [.sent bs]) :
    emitSamples bs s
      = .ok () (s.went [.sent bs] (trackSamples bs s.ste) (Bridge.feedSamples s.ste.mux bs s.bridge) s.bufs) := by
  simp only [State.gives, Env.gives, Bool.and_true, Bool.and_eq_true, decide_eq_true_eq] at h
  simp [emitSamples, State.wrOut, h.2, h.1, State.went, State.wrote, State.withSte, State.withBridge, Env.after]

/-- A write of samples that fails (R75, R97). -/
theorem emitSamples_fails {s : State} {bs : List Byte} {n : Nat} (h : s.gives [.wr bs n false]) :
    emitSamples bs s
      = .err (.transport (.write n)) (s.went [.wr bs n false] (s.ste.setIndet .d true) s.bridge.brokenSamples s.bufs) := by
  simp only [State.gives, Env.gives, Bool.and_true, Bool.and_eq_true, decide_eq_true_eq] at h
  simp [emitSamples, State.wrOut, h.2, h.1, State.went, State.wrote, State.withSte, State.withBridge, Env.after]

/-- A read that gets all it asked for (R84). -/
theorem rd_got {s : State} {n : Nat} {x : List Byte} (h : s.gives [.rd n x .ok]) :
    rd n s = .ok x (s.went [.rd n x .ok] s.ste (s.bridge.consume x.length) s.bufs) := by
  simp only [State.gives, Env.gives, Bool.and_true, decide_eq_true_eq] at h
  simp [rd, State.rdOut, h, State.went, State.didRead, Env.after]

/-- A read that fails (R84). -/
theorem rd_fails {s : State} {n : Nat} {x : List Byte} {st : RdStatus} {e : Err} (h : s.gives [.rd n x st])
    (he : (Event.rd n x st).error = some e) :
    rd n s = .err e (s.went [.rd n x st] s.ste (s.bridge.consume x.length) s.bufs) := by
  simp only [State.gives, Env.gives, Bool.and_true, decide_eq_true_eq] at h
  cases st <;> simp [Event.error] at he <;> subst he <;>
    simp [rd, State.rdOut, h, State.went, State.didRead, Env.after]

/-- A drain that succeeds (R83). -/
theorem flush_did {s : State} {x : List Byte} (h : s.gives [.flush x true]) :
    flush s = .ok () (s.went [.flush x true] s.ste (s.bridge.drained s.ste.mux x.length true) s.bufs) := by
  simp only [State.gives, Env.gives, Bool.and_true, decide_eq_true_eq] at h
  simp [flush, State.flOut, h, State.went, Env.after]

/-- A drain that fails (R83). -/
theorem flush_fails {s : State} {x : List Byte} (h : s.gives [.flush x false]) :
    flush s
      = .err (.transport .readAvailable) (s.went [.flush x false] s.ste (s.bridge.drained s.ste.mux x.length false) s.bufs) := by
  simp only [State.gives, Env.gives, Bool.and_true, decide_eq_true_eq] at h
  simp [flush, State.flOut, h, State.went, Env.after]

/-- A drain whose errors are ignored (R94, R95). -/
theorem flush_ignored {s : State} {x : List Byte} {ok : Bool} (h : s.gives [.flush x ok]) :
    (flush s).ignore = .ok () (s.went [.flush x ok] s.ste (s.bridge.drained s.ste.mux x.length ok) s.bufs) := by
  cases ok
  · rw [flush_fails h]; rfl
  · rw [flush_did h]; rfl

/-- A control request that succeeds (R74, R84). -/
theorem ctrl_did {s : State} {q : CtrlReq} (h : s.gives [.did q]) :
    ctrl q s = .ok () (s.went [.did q] (ctrlSte s.cfg.chip q s.ste) (Bridge.control q s.bridge) s.bufs) := by
  simp only [State.gives, Env.gives, Bool.and_true, decide_eq_true_eq] at h
  simp [ctrl, h, State.went, State.withSte, State.withBridge, Env.after]

/-- A control request that fails (R84). -/
theorem ctrl_fails {s : State} {q : CtrlReq} (h : s.gives [.ctrl q false]) :
    ctrl q s = .err (.transport .control) (s.went [.ctrl q false] s.ste (s.bridge.controlLost q) s.bufs) := by
  simp only [State.gives, Env.gives, Bool.and_true, decide_eq_true_eq] at h
  simp [ctrl, h, State.went, State.withBridge, Env.after]

/-- Samples written on BB in SYNC_BB mode: the last one is driven and cached, and each returns one sample (R75, R76). -/
theorem emitSamples_bb {s : State} {bs : List Byte} {x : Byte} (hm : s.ste.mux = .syncBb) (h : s.gives [.sent bs])
    (hx : bs.getLast? = some x) :
    emitSamples bs s
      = .ok () (s.went [.sent bs] { s.ste with grpD := { s.ste.grpD with val := x } }
          { s.bridge with latchD := x, sent := s.bridge.sent ++ List.replicate bs.length .sample } s.bufs) := by
  rw [emitSamples_sent h]
  simp [trackSamples, hx, Bridge.feedSamples, hm, List.map_const']

/-! ### Primitives run alone -/

/-- An accepted write of commands run alone, where the bridge understands commands (R50). -/
theorem runCmds_sent {s : State} {g : GroupId} {cs : List Instr} {bs : List Byte} (hr : s.ready)
    (hb : encodeAll cs = bs) (h : s.gives [.sent bs]) :
    runCmds g cs s = .next (s.ran [.sent bs] (trackSets cs s.ste) (cs.foldl Bridge.command s.bridge) s.bufs .done) := by
  obtain ⟨hc, hm, ha⟩ := hr
  simp [runCmds, emitCmds_sent hc hb h, Bridge.feed_ready _ cs ⟨hm, ha⟩, State.went_addResult]

/-- One accepted command run alone. -/
theorem runCommand_sent {s : State} {g : GroupId} {i : Instr} {bs : List Byte} (hr : s.ready)
    (he : i.emittable = true) (hb : encode i = bs) (h : s.gives [.sent bs]) :
    runCommand g i s = .next (s.ran [.sent bs] (trackSet s.ste i) (s.bridge.command i) s.bufs .done) := by
  rw [runCommand, if_pos he, runCmds_sent hr (by simpa [encodeAll] using hb) h]
  rfl

/-! ### Composites run alone (log entry 14): the device, the connection, the packet -/

/-- Without an open device a composite that reads `S` raises `E_NOT_OPEN` (R15, R27). -/
theorem composite_not_open {s : State} (h : s.ste.dev ≠ .opened) (body : State → Res Unit) :
    composite body s = .next (s.ran [] s.ste s.bridge s.bufs (.failed .notOpen)) := by
  simp only [composite, request, whenOpen, if_neg h, finish_err]
  rw [← State.went_addResult, State.went_nil]
  rfl

/-- On an open device it is its one write, with one result. -/
theorem composite_open {s : State} (h : s.ste.dev = .opened) (body : State → Res Unit) :
    composite body s = .next (finish .d ((body s).reply fun _ _ => .unit)) := by
  simp only [composite, request, whenOpen, if_pos h]

/-- An accepted write of a composite, where the bridge understands commands. -/
theorem composite_sent {s : State} {cs : List Instr} {bs : List Byte} (ho : s.ste.dev = .opened) (hr : s.ready)
    (hb : encodeAll cs = bs) (h : s.gives [.sent bs]) :
    composite (emitCmds cs) s
      = .next (s.ran [.sent bs] (trackSets cs s.ste) (cs.foldl Bridge.command s.bridge) s.bufs .done) := by
  rw [composite_open ho]
  exact runCmds_sent (g := .d) hr hb h

/-- An SPI composite needs a connection (R96). -/
theorem withSpi_none {s : State} (ho : s.ste.dev = .opened) (h : s.ste.spi = none) (body : SpiConn → State → Res Unit) :
    withSpi body s = .next (s.ran [] s.ste s.bridge s.bufs (.failed .notConnected)) := by
  simp only [withSpi, composite_open ho, h, Res.reply_err, finish_err]
  rw [← State.went_addResult, State.went_nil]
  rfl

/-- With one, it is the composite of that connection. -/
theorem withSpi_some {s : State} {c : SpiConn} (ho : s.ste.dev = .opened) (h : s.ste.spi = some c)
    (body : SpiConn → State → Res Unit) : withSpi body s = .next (finish .d ((body c s).reply fun _ _ => .unit)) := by
  simp only [withSpi, composite_open ho, h]

theorem onValid_ok {p : Packet} (h : packetError p = none) (body : State → Res Unit) (s : State) :
    onValid p body s = body s := by simp only [onValid, h]

theorem onValid_err {p : Packet} {e : Err} (h : packetError p = some e) (body : State → Res Unit) (s : State) :
    onValid p body s = .err e s := by simp only [onValid, h]

/-! ### Two-byte fields (R10, R34) -/

theorem lo8_mod (n : Nat) : BitVec.ofNat 8 (n % 256) = lo8 n := by
  simp [lo8, ← BitVec.toNat_inj]

theorem hi8_mod (n : Nat) : BitVec.ofNat 8 (n / 256 % 256) = hi8 n := by
  simp [hi8, ← BitVec.toNat_inj]

/-- A field from 0 to 65535 is read back from its two bytes. -/
theorem readField16_field (n : Nat) (h : n < 65536) : readField16 (lo8 n) (hi8 n) = n := by
  simp only [readField16, lo8, hi8, BitVec.toNat_ofNat]
  omega

end Sys2Proof.Machine
end

