-- ==== Sys2Proof/Machine/Text.lean ====
section
/-! DEFINITION. The textual syntax of 30_encoding.md R77: a mnemonic and its bytes in hex, and a composite with its
arguments in parentheses. Nothing in the machine reads it. -/

namespace Sys2Proof

/-- One hex digit. -/
def hexDigit (n : Nat) : String := ("0123456789ABCDEF".toList.getD n '0').toString

/-- A byte as R9 writes it. -/
def hexByte (b : Byte) : String := "0x" ++ hexDigit (b.toNat / 16) ++ hexDigit (b.toNat % 16)

/-- A comma between every two. -/
def commaList : List String → String
  | [] => ""
  | [x] => x
  | x :: y :: ys => x ++ ", " ++ commaList (y :: ys)

/-- An instruction's name (R58 to R68, R49, R74, R75, R78). -/
def Instr.mnemonic : Instr → String
  | .dataShift _ _ _ => "DATA_SHIFT"
  | .shiftBytesOut10 _ | .shiftBytesOut11 _ | .shiftBytesOut18 _ | .shiftBytesOut19 _ => "SHIFT_BYTES_OUT"
  | .shiftBytesIn _ => "SHIFT_BYTES_IN"
  | .shiftBytesInout31 _ | .shiftBytesInout34 _ | .shiftBytesInout39 _ | .shiftBytesInout3C _ => "SHIFT_BYTES_INOUT"
  | .shiftBitsIn _ => "SHIFT_BITS_IN"
  | .shiftBitsOut _ _ => "SHIFT_BITS_OUT"
  | .setBitsLow _ _ => "SET_BITS_LOW"
  | .readBitsLow => "READ_BITS_LOW"
  | .setBitsHigh _ _ => "SET_BITS_HIGH"
  | .readBitsHigh => "READ_BITS_HIGH"
  | .setDivisor _ => "SET_DIVISOR"
  | .sendImmediate => "SEND_IMMEDIATE"
  | .div5Off => "DIV5_OFF"
  | .div5On => "DIV5_ON"
  | .clk3PhaseOn => "CLK_3PHASE_ON"
  | .clk3PhaseOff => "CLK_3PHASE_OFF"
  | .driveZeroOnly _ _ => "DRIVE_ZERO_ONLY"
  | .probe1 => "PROBE1"
  | .probe2 => "PROBE2"
  | .reserved _ => "RESERVED"
  | .badCmd _ => "BAD_CMD"
  | .bbSample _ => "BB_SAMPLE"
  | .resetDevice => "RESET_DEVICE"
  | .init => "INIT"
  | .setBitmode _ _ => "SET_BITMODE"
  | .setRate _ => "SET_RATE"
  | .devOpen => "DEV_OPEN"
  | .devClose => "DEV_CLOSE"
  | .spiConnect _ _ _ => "SPI_CONNECT"
  | .spiTx _ _ => "SPI_TX"
  | .spiTxPackets _ => "SPI_TXPACKETS"
  | .spiClose => "SPI_CLOSE"
  | .i2cOpen _ => "I2C_OPEN"
  | .i2cSetSpeed _ => "I2C_SET_SPEED"
  | .i2cTx _ _ _ => "I2C_TX"
  | .i2cClose => "I2C_CLOSE"
  | .gpioOut _ _ _ => "GPIO_OUT"
  | .gpioIn _ _ => "GPIO_IN"
  | .gpioRead _ _ => "GPIO_READ"
  | .spiHeader => "SPI_HEADER"
  | .spiTrailer => "SPI_TRAILER"
  | .chunkCmd _ _ => "CHUNK_CMD"
  | .clockCmds _ _ => "CLOCK_CMDS"
  | .probe _ => "PROBE"
  | .i2cStart => "I2C_START"
  | .i2cStop => "I2C_STOP"
  | .i2cIdle => "I2C_IDLE"
  | .i2cWb _ => "I2C_WB"
  | .i2cRb _ => "I2C_RB"
  | .bbFrame _ => "BB_FRAME"

/-- A command's text: its mnemonic, then its bytes (R77). -/
def Instr.text (i : Instr) : String := i.mnemonic ++ " " ++ commaList ((encode i).map hexByte)

/-- A composite's or a control request's text: its name, then its arguments in parentheses (R77). -/
def Instr.compositeText (i : Instr) : String :=
  let args :=
    match i with
    | .chunkCmd _ k => [toString k]
    | .clockCmds low d => [hexByte (if low then OPC.div5On else OPC.div5Off), toString d]
    | .probe x => [hexByte x]
    | .i2cWb b => [hexByte b]
    | .i2cRb last => [toString last]
    | .setBitmode mask mode => [hexByte mask, hexByte mode.code]
    | .setRate r => [toString r]
    | _ => []
  if args.isEmpty then i.mnemonic else i.mnemonic ++ "(" ++ commaList args ++ ")"

end Sys2Proof
end

