-- ==== Sys2Proof/Tests/Slice0.lean ====
section
/-! SUPPORT. Tests: ill-formed terms that WellFormed refuses, every command's word written out from spec/30_encoding.md,
vectors of spec/95_test_vectors.md, and for every statement with hypotheses a state and operands that meet them. -/

namespace Sys2Proof.Tests
open Sys2Proof Sys2Proof.Machine

/-! ### Well-formedness: one refused term for each check (R51, R60, R61, R64, R69, R74, R93, R106) -/

theorem test_wf_shift_no_direction : (Instr.dataShift (.ofOpcode 0x0B) 1 []).wf = false := by decide
theorem test_wf_shift_no_bytes : (Instr.dataShift sel20 0 []).wf = false := by decide
theorem test_wf_shift_too_many_bytes : (Instr.dataShift sel20 65537 []).wf = false := by decide
theorem test_wf_shift_no_bits : (Instr.dataShift sel22 0 []).wf = false := by decide
theorem test_wf_shift_too_many_bits : (Instr.dataShift sel22 9 []).wf = false := by decide
theorem test_wf_shift_payload : (Instr.dataShift sel10 2 [1]).wf = false := by decide
theorem test_wf_shift_bit_payload : (Instr.dataShift sel13 8 []).wf = false := by decide
theorem test_wf_shift_in_payload : (Instr.dataShift sel20 1 [1]).wf = false := by decide
theorem test_wf_empty_payloads :
    [Instr.shiftBytesOut10 [], .shiftBytesOut11 [], .shiftBytesOut18 [], .shiftBytesOut19 [], .shiftBytesInout31 [],
      .shiftBytesInout34 [], .shiftBytesInout39 [], .shiftBytesInout3C []].map Instr.wf = List.replicate 8 false := by
  decide
theorem test_wf_long_payload (p : List Byte) (h : p.length = 65537) : (Instr.shiftBytesOut10 p).wf = false := by
  simp [Instr.wf, h]
theorem test_wf_bytes_in : (Instr.shiftBytesIn 0).wf = false ∧ (Instr.shiftBytesIn 65537).wf = false := by decide
theorem test_wf_bits_in : (Instr.shiftBitsIn 0).wf = false ∧ (Instr.shiftBitsIn 9).wf = false := by decide
theorem test_wf_bits_out : (Instr.shiftBitsOut 0 1).wf = false ∧ (Instr.shiftBitsOut 9 1).wf = false := by decide
theorem test_wf_divisor : (Instr.setDivisor 0).wf = false ∧ (Instr.setDivisor 65537).wf = false := by decide
theorem test_wf_clock : (Instr.clockCmds true 0).wf = false ∧ (Instr.clockCmds true 65537).wf = false := by decide
theorem test_wf_reserved : (Instr.reserved 0x87).wf = false ∧ (Instr.reserved 0x35).wf = false := by decide
theorem test_wf_bitmode : (Instr.setBitmode 0x0B .cmdStream).wf = false := by decide
theorem test_wf_probe : (Instr.probe 0xAC).wf = false := by decide
theorem test_wf_chunk_empty : (Instr.chunkCmd ⟨[], [], false, 8⟩ 0).wf = false := by decide
theorem test_wf_chunk_number : (Instr.chunkCmd ⟨[1], [], false, 8⟩ 1).wf = false := by decide
theorem test_wf_bb_frame : (Instr.bbFrame ⟨[], [], false, 8⟩).wf = false := by decide

/-! ### Decoding: words written out from R58 to R69 and R75 -/

/-- 0x35: IN, OUT, I and O (R58). -/
theorem test_word_data_shift :
    decode [0x35, 0x00, 0x00, 0x5A] = .ok (.dataShift ⟨true, true, false, true, false, true⟩ 1 [0x5A], []) := by decide
theorem test_word_out10 : decode [0x10, 0x01, 0x00, 7, 8] = .ok (.shiftBytesOut10 [7, 8], []) := by decide
theorem test_word_out11 : decode [0x11, 0x00, 0x00, 0xA0] = .ok (.shiftBytesOut11 [0xA0], []) := by decide
theorem test_word_out18 : decode [0x18, 0x00, 0x00, 1] = .ok (.shiftBytesOut18 [1], []) := by decide
theorem test_word_out19 : decode [0x19, 0x00, 0x00, 1] = .ok (.shiftBytesOut19 [1], []) := by decide
/-- 0x0102 + 1 bytes: the low byte of the field comes first (R34). -/
theorem test_word_bytes_in : decode [0x20, 0x02, 0x01, 0x87] = .ok (.shiftBytesIn 259, [0x87]) := by decide
theorem test_word_inout31 : decode [0x31, 0x02, 0x00, 1, 2, 3] = .ok (.shiftBytesInout31 [1, 2, 3], []) := by decide
theorem test_word_inout34 : decode [0x34, 0x00, 0x00, 1] = .ok (.shiftBytesInout34 [1], []) := by decide
theorem test_word_inout39 : decode [0x39, 0x00, 0x00, 1] = .ok (.shiftBytesInout39 [1], []) := by decide
theorem test_word_inout3C : decode [0x3C, 0x00, 0x00, 1] = .ok (.shiftBytesInout3C [1], []) := by decide
theorem test_word_bits_in : decode [0x22, 0x00, 0x87] = .ok (.shiftBitsIn 1, [0x87]) := by decide
theorem test_word_bits_out : decode [0x13, 0x07, 0xFF] = .ok (.shiftBitsOut 8 0xFF, []) := by decide
theorem test_word_set_low : decode [0x80, 0x08, 0x0B] = .ok (.setBitsLow 0x08 0x0B, []) := by decide
theorem test_word_read_low : decode [0x81] = .ok (.readBitsLow, []) := by decide
theorem test_word_set_high : decode [0x82, 0x01, 0x02] = .ok (.setBitsHigh 1 2, []) := by decide
theorem test_word_read_high : decode [0x83] = .ok (.readBitsHigh, []) := by decide
theorem test_word_divisor : decode [0x86, 0x5F, 0xEA] = .ok (.setDivisor 60000, []) := by decide
theorem test_word_immediate : decode [0x87] = .ok (.sendImmediate, []) := by decide
theorem test_word_div5_off : decode [0x8A] = .ok (.div5Off, []) := by decide
theorem test_word_div5_on : decode [0x8B] = .ok (.div5On, []) := by decide
theorem test_word_clk3_on : decode [0x8C] = .ok (.clk3PhaseOn, []) := by decide
theorem test_word_clk3_off : decode [0x8D] = .ok (.clk3PhaseOff, []) := by decide
theorem test_word_drive_zero : decode [0x9E, 0x03, 0x04] = .ok (.driveZeroOnly 3 4, []) := by decide
theorem test_word_probe1 : decode [0xAA] = .ok (.probe1, []) := by decide
theorem test_word_probe2 : decode [0xAB] = .ok (.probe2, []) := by decide
theorem test_word_reserved : decode [0x84, 0x01] = .ok (.reserved 0x84, [0x01]) := by decide
theorem test_word_bad_cmd : decodeResponse [0xFA, 0xAA] = .ok (.badCmd 0xAA, []) := by decide
theorem test_word_sample : decodeSample [0x2B, 0x80] = .ok (.bbSample 0x2B, [0x80]) := by decide
theorem test_word_bit_count : decode [0x22, 0x08] = .error (.badBitCount 0x22 0x08) := by decide
theorem test_word_short : decode [0x11, 0x01, 0x00, 0xA0] = .error (.truncated 0x11) := by decide

/-- The table's SET_BITS_LOW word, whose operand bytes have no bits of their own. -/
theorem test_table_word : decodeTableWord 8 0x80 = some (.setBitsLow 0 0) := by decide
/-- A host, control or composite row has no word: its constructor reaches the machine by name (R49, R50, R77). -/
theorem test_text :
    (Instr.shiftBytesInout31 [1, 2, 3]).text = "SHIFT_BYTES_INOUT 0x31, 0x02, 0x00, 0x01, 0x02, 0x03" := by decide
/-- The mode codes of R74, in the text of R114's direction request. -/
theorem test_bitmode_text : (Instr.setBitmode 0x0B .syncBb).compositeText = "SET_BITMODE(0x0B, 0x04)" := by decide

/-! ### States to test on -/

/-- Scripts under which every write, drain and control request succeeds, and the reads get these answers. -/
def tEnv (answers : List (List Byte)) : Env :=
  { wr := List.replicate 12 [], rd := answers.map fun a => ⟨[], a⟩, fl := List.replicate 4 [],
    ctrl := List.replicate 8 true, fresh := 0 }

/-- A state on parameters, an STE state and answers, with the bridge's state known. -/
def tState (p : Params) (t : Ste) (answers : List (List Byte)) : State :=
  { State.resetWith p with ste := t, bridge := { Bridge.reset with aligned := true }, env := tEnv answers }

/-- The defaults with `CHIP` = BB. -/
def tBbParams : Params := { Params.default with chip := .bb }

/-- `S0` (95_test_vectors.md section 0). -/
def tS0 : Ste :=
  { Ste.reset with dev := .opened, mux := .cmdStream, grpD := ⟨0, 0, false⟩, grpC := ⟨0, 0, false⟩ }

/-- `S0b`. -/
def tS0b : Ste := { tS0 with mux := .syncBb }

/-- The connection of `SPI_CONNECT(f, 0, 8)`. -/
def tConn (f : Nat) : SpiConn := ⟨false, false, false, false, f⟩

/-- `S_spi0`. -/
def tSpi0 : Ste :=
  { tS0 with grpD := ⟨0x0B, 0x08, false⟩, clk := some (hz 10000000), spi := some (tConn 10000000), usingSpi := true }

/-- `S_spi0` with NO_CS. -/
def tNoCs : Ste := { tSpi0 with spi := some ⟨false, false, true, false, 10000000⟩ }

/-- The end of T-BBC1. -/
def tSpi0b : Ste := { tSpi0 with mux := .syncBb, bbdir := 0x0B, clk := some (hz 1000000), spi := some (tConn 1000000) }

/-- `S_i2c0`. -/
def tI2c0 : Ste :=
  { tS0 with grpD := ⟨0x03, 0x03, false⟩, clk := some (mkRat 150000 1), i2c := some ⟨100000⟩, usingI2c := true }

/-- On CMD, every event a success. -/
def tCmd (t : Ste) (answers : List (List Byte)) : State := tState Params.default t answers

/-- On BB, every event a success. -/
def tBb (t : Ste) (answers : List (List Byte)) : State := tState tBbParams t answers

/-- The first write fails after `n` bytes. -/
def tFails (n : Nat) (s : State) : State := { s with env := { s.env with wr := [[(n, false)]] } }

/-- The control requests answer these. -/
def tCtrl (as : List Bool) (s : State) : State := { s with env := { s.env with ctrl := as } }

/-- `P_CHUNK` is 4. -/
def tChunk4 (s : State) : State := { s with cfg := { s.cfg with pChunk := 4 } }

/-- What one instruction leaves: the events, the results and group D. -/
def tEnd (i : Instr) (s : State) : Option (List Event × List Result × Group) :=
  match exec i s with
  | .next t => some (t.trace, t.results, t.ste.grpD)
  | _ => none

/-! ### Vectors of 95_test_vectors.md -/

/-- T-OPEN1. -/
theorem test_open :
    tEnd .devOpen (tCmd Ste.reset [[0xFA, 0xAA], [0xFA, 0xAB]])
      = some ([.did .init, .did (.setBitmode 0 .reset), .did (.setBitmode 0 .cmdStream), .flush [] true,
          .sent [0xAA, 0x87], .got [0xFA, 0xAA], .sent [0xAB, 0x87], .got [0xFA, 0xAB],
          .sent [0x8D, 0x9E, 0, 0, 0x80, 0, 0, 0x82, 0, 0]], [.done], ⟨0, 0, false⟩) := by decide
/-- T-OPEN2, its event count and result: the first attempt stops after probe 1. -/
theorem test_open_retry :
    (tEnd .devOpen (tCmd Ste.reset [[0, 0], [0xFA, 0xAA], [0xFA, 0xAB]])).map (fun x => (x.1.length, x.2.1))
      = some (17, [.done]) := by decide
/-- T-OPEN3. -/
theorem test_open_fails :
    (tEnd .devOpen (tCmd Ste.reset [[0xFA, 0xAA], [0xFA, 0xAA], [0xFA, 0xAA], [0xFA, 0xAA]])).map (fun x => x.2.1)
      = some [.failed .verifyFailed] := by decide
/-- T-SC9. -/
theorem test_connect_low :
    tEnd (.spiConnect 100 0 8) (tCmd tS0 [])
      = some ([.sent [0x8B, 0x86, 0x5F, 0xEA], .sent [0x8D, 0x9E, 0, 0, 0x80, 0x08, 0x0B]], [.done],
          ⟨0x0B, 0x08, false⟩) := by decide
/-- T-SC11. -/
theorem test_connect_not_lower :
    tEnd (.spiConnect 20000000 3 8) (tCmd tSpi0 [])
      = some ([.sent [0x8D, 0x9E, 0, 0, 0x80, 0x09, 0x0B]], [.done], ⟨0x0B, 0x09, false⟩) := by decide
/-- T-SC2. -/
theorem test_connect_half_duplex :
    tEnd (.spiConnect 10000000 0x1F 8) (tCmd tS0 []) = some ([], [.failed .halfDuplex], ⟨0, 0, false⟩) := by decide
/-- L1.7, the transfer. -/
theorem test_spi_tx :
    tEnd (.spiTx [1, 2, 3] [0, 0, 0]) (tCmd tSpi0 [[0xAA, 0xBB, 0xCC]])
      = some ([.sent [0x80, 0x08, 0x0B, 0x80, 0x00, 0x0B, 0x31, 0x02, 0x00, 1, 2, 3, 0x87], .got [0xAA, 0xBB, 0xCC],
          .sent [0x80, 0x08, 0x0B]], [⟨none, .bytes [0xAA, 0xBB, 0xCC]⟩], ⟨0x0B, 0x08, false⟩) := by decide
/-- T-ST7. -/
theorem test_spi_tx_chunks :
    (tEnd (.spiTx [0, 1, 2, 3, 4, 5, 6, 7, 8, 9] (List.replicate 10 0))
        (tChunk4 (tCmd tSpi0 [[0xA0, 0xA1, 0xA2, 0xA3], [0xA4, 0xA5, 0xA6, 0xA7], [0xA8, 0xA9]]))).map (fun x => x.1)
      = some [.sent [0x80, 0x08, 0x0B, 0x80, 0x00, 0x0B, 0x31, 0x03, 0x00, 0, 1, 2, 3, 0x87],
          .sent [0x31, 0x03, 0x00, 4, 5, 6, 7, 0x87], .got [0xA0, 0xA1, 0xA2, 0xA3],
          .sent [0x31, 0x01, 0x00, 8, 9, 0x87], .got [0xA4, 0xA5, 0xA6, 0xA7], .got [0xA8, 0xA9],
          .sent [0x80, 0x08, 0x0B]] := by decide
/-- T-ST9. -/
theorem test_spi_packets :
    tEnd (.spiTxPackets [⟨[0x9F], [], false, 8⟩, ⟨[], [0, 0, 0], false, 8⟩]) (tCmd tSpi0 [[0xEF, 0x40, 0x18]])
      = some ([.sent [0x80, 0x08, 0x0B, 0x80, 0x00, 0x0B, 0x11, 0x00, 0x00, 0x9F], .sent [0x80, 0x08, 0x0B],
          .sent [0x80, 0x08, 0x0B, 0x80, 0x00, 0x0B, 0x31, 0x02, 0x00, 0, 0, 0, 0x87], .got [0xEF, 0x40, 0x18],
          .sent [0x80, 0x08, 0x0B]], [⟨none, .bufs [[], [0xEF, 0x40, 0x18]]⟩], ⟨0x0B, 0x08, false⟩) := by decide
/-- T-ST15. -/
theorem test_spi_tx_write_fails :
    tEnd (.spiTx [1] [0]) (tFails 4 (tCmd tSpi0 []))
      = some ([.wr [0x80, 0x08, 0x0B, 0x80, 0x00, 0x0B, 0x31, 0x00, 0x00, 1, 0x87] 4 false],
          [.failed (.transport (.write 4))], ⟨0x0B, 0x08, true⟩) := by decide
/-- T-ST14, the read buffer. -/
theorem test_spi_tx_truncated :
    (match exec (.spiTx [0, 1, 2, 3, 4, 5] (List.replicate 6 9)) (tChunk4 (tCmd tSpi0 [[0xA0, 0xA1, 0xA2, 0xA3], [0xA4]])) with
      | .next t => (t.bufs, t.results)
      | _ => ([], [])) = ([[0xA0, 0xA1, 0xA2, 0xA3, 9, 9]], [.failed .truncated]) := by decide
/-- U9, R111 and R167 (c): after a truncated chunk read on CMD group D's pins are any value; group C's are as they were. -/
theorem test_spi_tx_truncated_pins :
    (match exec (.spiTx [1] [9]) (tCmd tSpi0 [[]]) with
      | .next t => (t.bridge.latchD = (Config.freeBridge 0).latchD ∧ t.bridge.dirD = (Config.freeBridge 0).dirD)
          ∧ t.bridge.latchC = (tCmd tSpi0 []).bridge.latchC ∧ t.ste.grpD.indet = true
      | _ => False) := ⟨⟨rfl, rfl⟩, rfl, rfl⟩
/-- R162: after a failed sample write, DEV_CLOSE and DEV_OPEN re-align the response stream on BB. -/
theorem test_bb_realign :
    (match exec (.gpioOut .d 4 true) { tBb tS0b [] with env := { tEnv [] with wr := [[(0, false)]] } } with
      | .next t =>
        match exec .devClose t with
        | .next t =>
          match exec .devOpen t with
          | .next t => (t.bridge.queue, t.bridge.sent, t.results.map (·.err))
          | _ => ([.data], [], [])
        | _ => ([.data], [], [])
      | _ => ([.data], [], [])) = ([], [], [some (.transport (.write 0)), none, none]) := by rfl
/-- T-BBC1. -/
theorem test_bb_connect :
    tEnd (.spiConnect 1000000 0 8) (tBb tS0b [[0]])
      = some ([.did (.setRate 2000000), .did (.setBitmode 0x0B .syncBb), .sent [0x08], .got [0]], [.done],
          ⟨0x0B, 0x08, false⟩) := by decide
/-- T-BBT1 with the frame and the answer of T-BB1. -/
theorem test_bb_tx :
    tEnd (.spiTx [0xA5] [0])
        (tBb tSpi0b [[8, 8, 0, 6, 7, 0, 1, 6, 7, 0, 1, 0, 1, 6, 7, 0, 1, 6, 7, 0]])
      = some ([.sent [8, 0, 2, 3, 0, 1, 2, 3, 0, 1, 0, 1, 2, 3, 0, 1, 2, 3, 0, 8],
          .got [8, 8, 0, 6, 7, 0, 1, 6, 7, 0, 1, 0, 1, 6, 7, 0, 1, 6, 7, 0]], [⟨none, .bytes [0xA5]⟩],
          ⟨0x0B, 0x08, false⟩) := by decide
/-- T-BB3 (mode 2) and T-BB4 (LSB first): the frames. -/
theorem test_bb_frames :
    bbFrameOf ⟨false, true, false, false, 100⟩ ⟨0, 0, false⟩ (txPacketOf [0x81] [0])
        = [9, 1, 3, 2, 1, 0, 1, 0, 1, 0, 1, 0, 1, 0, 1, 0, 3, 2, 1, 9]
      ∧ bbFrameOf ⟨false, false, false, true, 100⟩ ⟨0, 0, false⟩ (txPacketOf [0x01] [0])
        = [8, 0, 2, 3, 0, 1, 0, 1, 0, 1, 0, 1, 0, 1, 0, 1, 0, 1, 0, 8] := by decide
/-- T-I1. -/
theorem test_i2c_open :
    tEnd (.i2cOpen .float) (tCmd tS0 [])
      = some ([.sent [0x8A, 0x86, 0xC7, 0x00], .sent [0x8C, 0x9E, 0x03, 0x00, 0x80, 0x03, 0x03]], [.done],
          ⟨0x03, 0x03, false⟩) := by decide
/-- T-I7 and T-I8: the lowest rate of the low base, and the first below it. -/
theorem test_i2c_speed :
    (tEnd (.i2cSetSpeed 62) (tCmd tI2c0 [])).map (fun x => x.1) = some [.sent [0x8B, 0x86, 0x04, 0xFC]]
      ∧ (tEnd (.i2cSetSpeed 61) (tCmd tI2c0 [])).map (fun x => (x.1, x.2.1)) = some ([], [.failed .clockTooLow]) := by
  decide
/-- T-I14, its middle writes. -/
theorem test_i2c_read :
    (tEnd (.i2cTx 0xA1 [] [0, 0]) (tCmd tI2c0 [[0], [0xDE], [0xAD]])).map (fun x => ((x.1.drop 1).take 6, x.2.1))
      = some ([.sent [0x11, 0, 0, 0xA1, 0x80, 0x02, 0x03, 0x22, 0, 0x87], .got [0],
          .sent [0x20, 0, 0, 0x13, 0, 0, 0x80, 0x02, 0x03, 0x87], .got [0xDE],
          .sent [0x20, 0, 0, 0x13, 0, 0xFF, 0x80, 0x02, 0x03, 0x87], .got [0xAD]], [⟨none, .bytes [0xDE, 0xAD]⟩]) := by
  decide
/-- T-I15: five events and STOP, and 0x20 is not sent. -/
theorem test_i2c_nak :
    (tEnd (.i2cTx 0xA0 [0x10, 0x20] []) (tCmd tI2c0 [[0], [1]])).map (fun x => (x.1.length, x.2.1))
      = some (6, [.failed .nak]) := by decide
/-- T-I13. -/
theorem test_i2c_close_fails :
    (match exec .i2cClose (tFails 0 (tCmd tI2c0 [])) with
      | .next t => (t.results, t.ste.usingI2c, t.ste.grpD.indet)
      | _ => ([], true, false)) = ([.failed (.transport (.write 0))], false, true) := by decide
/-- A failed CLOCK_SELECT leaves `S.clk` NONE (R147 (b)), and a failed idle set after it leaves the target (R148). -/
theorem test_clock_after_failure :
    (match exec (.i2cSetSpeed 62) (tFails 2 (tCmd tI2c0 [])) with
      | .next t => t.ste.clk
      | _ => some 0) = none
      ∧ (match exec (.spiConnect 100 0 8) { tCmd tSpi0 [] with env := { tEnv [] with wr := [[], [(1, false)]] } } with
        | .next t => t.ste.clk
        | _ => none) = some (hz 100) := by decide
/-- R68 and R69: the bridge answers a probe, and only in CMD_STREAM mode; it recognises an opcode the STE emits. -/
theorem test_bad_cmd :
    (match exec (.badCmd 0xAB) (tCmd tS0 []) with
      | .next t => t.bridge.queue
      | _ => []) = [.marker, .echo 0xAB]
      ∧ (match exec (.badCmd 0x80) (tCmd tS0 []), exec (.badCmd 0xAB) (tBb tS0b []) with
        | .next t, .next u => t.bridge.queue ++ u.bridge.queue
        | _, _ => [.data]) = [] := by decide
/-- R69 and U15: what the bridge does with a byte the STE never emits is unmodelled, and nothing else changes. -/
theorem test_bad_cmd_unlisted :
    exec (.badCmd 0x00) (tCmd tS0 []) = .next { tCmd tS0 [] with bridge := (tCmd tS0 []).bridge.havoc } := by rfl
/-- T-G1, T-G2 and T-G3. -/
theorem test_gpio_out :
    (tEnd (.gpioOut .d 4 true) (tCmd tSpi0 [])).map (fun x => x.1) = some [.sent [0x80, 0x18, 0x1B]]
      ∧ (tEnd (.gpioOut .d 3 false) (tCmd tSpi0 [])).map (fun x => x.2.1) = some [.failed .pinBusy]
      ∧ (tEnd (.gpioOut .d 3 false) (tCmd tNoCs [])).map (fun x => x.1) = some [.sent [0x80, 0x00, 0x0B]] := by decide
/-- T-G6 and T-G7. -/
theorem test_gpio_read :
    (tEnd (.gpioRead .d 5) (tCmd tS0 [[0x20]])).map (fun x => x.2.1) = some [⟨none, .level true⟩]
      ∧ (tEnd (.gpioRead .c 7) (tCmd tS0 [[0x7F]])).map (fun x => x.2.1) = some [⟨none, .level false⟩] := by decide
/-- T-G9, the first call. -/
theorem test_gpio_out_bb :
    tEnd (.gpioOut .d 4 true) (tBb tS0b [[0]])
      = some ([.did (.setBitmode 0x10 .syncBb), .sent [0x10], .got [0]], [.done], ⟨0x10, 0x10, false⟩) := by decide
/-- T-TR2, T-TR3 and T-TR8. -/
theorem test_transport :
    usbWriteAll 4 [(3, true), (3, true)] [1, 2, 3, 4, 5, 6] = ⟨6, true, [[1, 2, 3, 4], [4, 5, 6]]⟩
      ∧ usbWriteAll 4 [(2, false)] [1, 2, 3, 4, 5, 6] = ⟨2, false, [[1, 2, 3, 4]]⟩
      ∧ usbReadAll 8 [] [⟨false, some 1, some [7]⟩, ⟨false, some 0, none⟩, ⟨true, none, none⟩] 3 = ⟨[7], .truncated⟩ := by
  decide
/-- A word of the table is the first instruction a step runs after reset. -/
theorem test_first_step :
    (match step (State.reset.withFetchWord 8 0x84) with
      | .refused r => decide (r = .reservedOpcode 0x84)
      | _ => false) = true := by decide

/-! ### Witnesses: for every statement with hypotheses, a state and operands that meet them all -/

/-- An unbroken write is accepted, whatever its bytes are. -/
theorem sent_of_empty_script {s : State} {as : List (List (Nat × Bool))} (bs : List Byte) (h : s.env.wr = [] :: as) :
    s.gives [.sent bs] := by
  have hn : s.env.nextWr.1 = [] := by simp [Env.nextWr, h]
  have hw : ∀ x : Nat, (usbWriteAll x [] bs).n = bs.length ∧ (usbWriteAll x [] bs).ok = true := by
    intro x; cases bs <;> simp [usbWriteAll]
  show Env.gives _ _ _ = true
  simp [Env.gives, hn, hw]

/-- Ready for a command, whose one write will be accepted. -/
theorem ready_and_sent (bs : List Byte) : (tCmd tS0 []).ready ∧ (tCmd tS0 []).gives [.sent bs] :=
  ⟨by decide, sent_of_empty_script bs rfl⟩

theorem witness_ShiftBytesOutRuns :
    ∀ n, n = 1 ∨ n = 65536 → ∃ (p : List Byte) (s : State), p.length = n ∧ 1 ≤ p.length ∧ p.length ≤ 65536 ∧ s.ready
      ∧ ∀ op : Byte, s.gives [.sent
        ([op, BitVec.ofNat 8 ((p.length - 1) % 256), BitVec.ofNat 8 ((p.length - 1) / 256 % 256)] ++ p)] := by
  intro n h
  refine ⟨List.replicate n 0xA5, tCmd tS0 [], List.length_replicate, ?_, ?_, (ready_and_sent []).1,
    fun op => (ready_and_sent _).2⟩ <;> rw [List.length_replicate] <;> omega

theorem witness_ShiftBytesInRuns :
    ∃ s : State, s.ready ∧ s.gives [.sent [0x20, 0x00, 0x00]] ∧ s.gives [.sent [0x20, 0xFF, 0xFF]]
      ∧ s.gives [.sent [0x31, 0x00, 0x00, 0x01]] :=
  ⟨tCmd tS0 [], (ready_and_sent []).1, (ready_and_sent _).2, (ready_and_sent _).2, (ready_and_sent _).2⟩

theorem witness_ShiftBitsRuns :
    ∃ s : State, s.ready ∧ s.gives [.sent [0x22, 0x00]] ∧ s.gives [.sent [0x22, 0x07]]
      ∧ s.gives [.sent [0x13, 0x00, 0xFF]] ∧ s.gives [.sent [0x13, 0x07, 0x80]] :=
  ⟨tCmd tS0 [], (ready_and_sent []).1, (ready_and_sent _).2, (ready_and_sent _).2, (ready_and_sent _).2,
    (ready_and_sent _).2⟩

theorem witness_DataShiftRunsOrStops :
    (sel31.opcode ∈ ([0x10, 0x11, 0x18, 0x19, 0x20, 0x22, 0x13, 0x31, 0x34, 0x39, 0x3C] : List Byte)
        ∧ sel31.wf 1 [1] = true ∧ (tCmd tS0 []).ready ∧ (tCmd tS0 []).gives [.sent (encodeShift sel31 1 [1])])
      ∧ sel31.wf 2 [1] = false
      ∧ (ShiftSel.ofOpcode 0x30).opcode
        ∉ ([0x10, 0x11, 0x18, 0x19, 0x20, 0x22, 0x13, 0x31, 0x34, 0x39, 0x3C] : List Byte) :=
  ⟨⟨by decide, by decide, (ready_and_sent []).1, (ready_and_sent _).2⟩, by decide, by decide⟩

theorem witness_ReservedStops :
    (Instr.setDivisor 0).isCommand = true ∧ (Instr.setDivisor 0).emittable = false
      ∧ (Instr.dataShift (.ofOpcode 0x30) 1 [1]).isCommand = true
      ∧ (Instr.dataShift (.ofOpcode 0x30) 1 [1]).emittable = false := by decide

theorem witness_GroupSetRuns :
    (tCmd tS0 []).ready ∧ (tCmd tS0 []).gives [.sent [0x80, 0xFF, 0x0B]] ∧ (tCmd tS0 []).gives [.sent [0x82, 0x01, 0x80]] :=
  ⟨(ready_and_sent []).1, (ready_and_sent _).2, (ready_and_sent _).2⟩

theorem witness_PlainCommandsRun :
    (tCmd tS0 []).ready
      ∧ ∀ bs ∈ ([[0x81], [0x83], [0x8A], [0x8B], [0x86, 0x00, 0x00], [0x86, 0xFF, 0xFF], [0x8C], [0x8D], [0x9E, 3, 0],
        [0x87], [0xAA], [0xAB]] : List (List Byte)), (tCmd tS0 []).gives [.sent bs] :=
  ⟨(ready_and_sent []).1, fun _ _ => (ready_and_sent _).2⟩

/-- A probe, recognised opcodes, bytes outside the list at its boundaries, and a state in another mode. -/
theorem witness_BadCmdQueues :
    (tCmd tS0 []).cfg.chip = .cmd ∧ (tCmd tS0 []).ste.mux = .cmdStream
      ∧ (∀ op ∈ ([0x00, 0x0F, 0x12, 0x3D, 0x7F, 0x9F, 0xA9, 0xAC, 0xFF] : List Byte),
          ¬(op = 0xAA ∨ op = 0xAB) ∧ isRecognised op = false)
      ∧ (∀ op ∈ ([0x10, 0x3C, 0x80, 0x9E] : List Byte), isRecognised op = true)
      ∧ ¬((tBb tS0b []).cfg.chip = .cmd ∧ (tBb tS0b []).ste.mux = .cmdStream) := by decide

theorem witness_BbSamplesRun :
    (tBb tS0b []).cfg.chip = .bb ∧ (tBb tS0b []).ste.mux = .syncBb ∧ (tBb tS0b []).gives [.sent [0x2B]]
      ∧ (Instr.setBitsLow 1 2).emittable = true ∧ (tBb tS0b []).gives [.sent (encode (.setBitsLow 1 2))]
      ∧ (tCmd tS0 []).cfg.chip = .cmd :=
  ⟨rfl, rfl, sent_of_empty_script _ rfl, by decide, sent_of_empty_script _ rfl, rfl⟩

theorem witness_FailedWriteMarksGroup :
    (Instr.setBitsHigh 1 1).emittable = true ∧ (tFails 2 (tCmd tS0 [])).cfg.chip = .cmd
      ∧ (tFails 2 (tCmd tS0 [])).gives [.wr (encode (.setBitsHigh 1 1)) 2 false]
      ∧ Instr.sendImmediate.emittable = true
      ∧ (tFails 0 (tCmd tS0 [])).gives [.wr (encode .sendImmediate) 0 false]
      ∧ (tFails 0 (tCmd tS0 [])).ready ∧ setsClock .sendImmediate = false :=
  ⟨by decide, rfl, by rfl, by decide, by rfl, by decide, rfl⟩

theorem witness_LengthDecoding :
    (0x31#8 &&& 0xC0#8 = 0 ∧ 0x31#8 &&& 0x30#8 ≠ 0 ∧ 0x31#8 &&& 0x02#8 = 0)
      ∧ (0x13#8 &&& 0xC0#8 = 0 ∧ 0x13#8 &&& 0x30#8 ≠ 0 ∧ 0x13#8 &&& 0x02#8 ≠ 0)
      ∧ (¬(0x0F#8 &&& 0xC0#8 = 0 ∧ 0x0F#8 &&& 0x30#8 ≠ 0)
        ∧ 0x0F#8 ∉ ([0x80, 0x82, 0x86, 0x9E, 0x81, 0x83, 0x87, 0x8A, 0x8B, 0x8C, 0x8D, 0xAA, 0xAB] : List Byte))
      ∧ (Instr.shiftBytesIn 65536).isCommand = true ∧ (Instr.shiftBytesIn 65536).wf = true := by decide

theorem witness_DecodeEncode :
    (Instr.shiftBytesIn 65536).encodable = true ∧ (Instr.setDivisor 65536).encodable = true
      ∧ (Instr.dataShift (.ofOpcode 0x30) 1 [7]).encodable = true ∧ (Instr.reserved 0x0F).encodable = true
      ∧ decode [0x86, 0xFF, 0xFF] = .ok (.setDivisor 65536, []) := by decide

theorem witness_ControlRuns :
    (∀ q : CtrlReq, (tCmd tS0 []).gives [.did q] ∧ (tBb tS0b []).gives [.did q]) ∧ (0x0B#8 ≠ 0)
      ∧ (tBb tS0b []).ste.mux = .syncBb ∧ (tCmd tS0 []).ste.mux ≠ .syncBb :=
  ⟨fun _ => ⟨rfl, rfl⟩, by decide, rfl, by decide⟩

theorem witness_SpiFrameRuns :
    ((tCmd tSpi0 []).ready ∧ (tCmd tSpi0 []).ste.dev = .opened ∧ (tCmd tSpi0 []).ste.spi = some (tConn 10000000)
        ∧ (tCmd tSpi0 []).gives [.sent [0x80, 0x08, 0x0B, 0x80, 0x00, 0x0B]]
        ∧ (tCmd tSpi0 []).gives [.sent [0x80, 0x08, 0x0B]])
      ∧ ((tCmd tNoCs []).ready ∧ (tCmd tNoCs []).ste.dev = .opened
        ∧ (tCmd tNoCs []).ste.spi = some ⟨false, false, true, false, 10000000⟩
        ∧ (tCmd tNoCs []).gives [.sent [0x80, 0x08, 0x0B]])
      ∧ (tCmd Ste.reset []).ste.dev ≠ .opened ∧ (tCmd tS0 []).ste.dev = .opened ∧ (tCmd tS0 []).ste.spi = none :=
  ⟨⟨by decide, rfl, rfl, sent_of_empty_script _ rfl, sent_of_empty_script _ rfl⟩,
    ⟨by decide, rfl, rfl, sent_of_empty_script _ rfl⟩, by decide, rfl, rfl⟩

/-- The last chunk of a packet with a short last chunk, and the chunk after it; then a closed device, no connection, and an
invalid packet. -/
theorem witness_ChunkCmdRuns :
    ((tChunk4 (tCmd tSpi0 [])).ready ∧ (tChunk4 (tCmd tSpi0 [])).ste.dev = .opened
        ∧ (tChunk4 (tCmd tSpi0 [])).ste.spi = some (tConn 10000000)
        ∧ packetError (txPacketOf [1, 2, 3, 4, 5, 6] []) = none ∧ packetError (txPacketOf [] [1, 2, 3, 4, 5, 6]) = none
        ∧ 1 ≤ (tChunk4 (tCmd tSpi0 [])).cfg.pChunk ∧ 1 * (tChunk4 (tCmd tSpi0 [])).cfg.pChunk < 6
        ∧ (tChunk4 (tCmd tSpi0 [])).gives [.sent [0x11, 0x01, 0x00, 5, 6]]
        ∧ (tChunk4 (tCmd tSpi0 [])).gives [.sent [0x31, 0x01, 0x00, 5, 6, 0x87]]
        ∧ 6 ≤ 2 * (tChunk4 (tCmd tSpi0 [])).cfg.pChunk)
      ∧ (tCmd Ste.reset []).ste.dev ≠ .opened ∧ (tCmd tS0 []).ste.dev = .opened ∧ (tCmd tS0 []).ste.spi = none
      ∧ (tCmd tSpi0 []).ste.spi ≠ none ∧ packetError (txPacketOf [] []) = some .emptyPacket :=
  ⟨⟨by decide, rfl, rfl, by decide, by decide, by decide, by decide, sent_of_empty_script _ rfl,
    sent_of_empty_script _ rfl, by decide⟩, by decide, rfl, rfl, by decide, by decide⟩

theorem witness_ClockAndProbeRun :
    (tCmd tS0 []).ready ∧ (tCmd tS0 []).gives [.sent [0x8A, 0x86, 0x00, 0x00]]
      ∧ (tCmd tS0 []).gives [.sent [0x8B, 0x86, 0xFF, 0xFF]] ∧ (tCmd tS0 []).gives [.sent [0xAB, 0x87]] :=
  ⟨(ready_and_sent []).1, (ready_and_sent _).2, (ready_and_sent _).2, (ready_and_sent _).2⟩

theorem witness_I2cConditionsRun :
    (∃ s : State, s.ready ∧ s.ste.dev = .opened ∧ 1 ≤ s.cfg.k ∧ ∀ bs, s.gives [.sent bs])
      ∧ (tCmd Ste.reset []).ste.dev ≠ .opened :=
  ⟨⟨tCmd tI2c0 [], by decide, rfl, by decide, fun _ => sent_of_empty_script _ rfl⟩, by decide⟩

theorem witness_I2cByteStepsRun :
    (tCmd tI2c0 []).ready ∧ (tCmd tI2c0 []).ste.dev = .opened
      ∧ (tCmd tI2c0 []).gives [.sent [0x11, 0x00, 0x00, 0xA0, 0x80, 0x02, 0x03, 0x22, 0x00, 0x87]]
      ∧ (tCmd tI2c0 []).gives [.sent [0x20, 0x00, 0x00, 0x13, 0x00, 0xFF, 0x80, 0x02, 0x03, 0x87]]
      ∧ (tCmd Ste.reset []).ste.dev ≠ .opened :=
  ⟨by decide, rfl, sent_of_empty_script _ rfl, sent_of_empty_script _ rfl, by decide⟩

theorem witness_BbFrameRuns :
    (tBb tSpi0b []).cfg.chip = .bb ∧ (tBb tSpi0b []).ste.dev = .opened ∧ (tBb tSpi0b []).ste.mux = .syncBb
      ∧ (tBb tSpi0b []).ste.spi = some (tConn 1000000) ∧ packetError (txPacketOf [0xA5] []) = none
      ∧ (tBb tSpi0b []).gives [.sent (bbFrameOf (tConn 1000000) (tBb tSpi0b []).ste.grpD (txPacketOf [0xA5] []))]
      ∧ (tBb Ste.reset []).ste.dev ≠ .opened ∧ (tBb tS0b []).ste.dev = .opened ∧ (tBb tS0b []).ste.spi = none
      ∧ (tBb tSpi0b []).ste.spi ≠ none ∧ packetError (txPacketOf [1] [2, 3]) = some .lenMismatch
      ∧ (tCmd tSpi0 []).cfg.chip = .cmd :=
  ⟨rfl, rfl, rfl, rfl, by decide, sent_of_empty_script _ rfl, by decide, rfl, rfl, by decide, by decide, rfl⟩

/-- A first attempt that stops at its first probe. -/
def tBadEcho : List Event := modeSetEvents [] ++ ([.sent [0xAA, 0x87], .rd 2 [0, 0] .ok] : List Event)

/-- What comes before the second attempt's fast path. -/
def tResetDrain : List Event := [.did .resetDevice, .flush [] true]

theorem witness_OpenOnCmd :
    ((tCmd Ste.reset [[0xFA, 0xAA], [0xFA, 0xAB]]).cfg.chip = .cmd
        ∧ (tCmd Ste.reset [[0xFA, 0xAA], [0xFA, 0xAB]]).ste.dev ≠ .opened
        ∧ (tCmd Ste.reset [[0xFA, 0xAA], [0xFA, 0xAB]]).gives
          (([] : List Event) ++ fastPathEvents [] ++ ([.sent finalBytes] : List Event)))
      ∧ PathFails tBadEcho .verifyFailed
      ∧ (tCmd Ste.reset [[0, 0], [0xFA, 0xAA], [0xFA, 0xAB]]).gives
        ((tBadEcho ++ tResetDrain) ++ fastPathEvents [] ++ ([.sent finalBytes] : List Event)) :=
  ⟨⟨rfl, by decide, by rfl⟩, .wrong1 [] [0, 0] (by decide), by rfl⟩

theorem witness_OpenFailsHard :
    PathFails [.ctrl .init false] (.transport .control)
      ∧ secondFails [.ctrl .resetDevice false] (.transport .control)
      ∧ (tCtrl [false, false] (tCmd Ste.reset [])).gives [.ctrl .init false, .ctrl .resetDevice false]
      ∧ secondFails (tResetDrain ++ ([.ctrl .init false] : List Event)) (.transport .control)
      ∧ (tCtrl [false, true, false] (tCmd Ste.reset [])).gives
        (.ctrl .init false :: (tResetDrain ++ ([.ctrl .init false] : List Event)))
      ∧ (tCtrl [false, false] (tCmd Ste.reset [])).cfg.chip = .cmd
      ∧ (tCtrl [false, false] (tCmd Ste.reset [])).ste.dev ≠ .opened :=
  ⟨.init, .inl ⟨rfl, rfl⟩, by rfl, .inr ⟨[], true, _, rfl, .init⟩, by rfl, rfl, by decide⟩

/-- The third write of the open fails. -/
def tFinalFails (answers : List (List Byte)) : State :=
  { tCmd Ste.reset answers with env := { tEnv answers with wr := [[], [], [(4, false)]] } }

theorem witness_OpenFailsHard_final :
    (tFinalFails [[0xFA, 0xAA], [0xFA, 0xAB]]).cfg.chip = .cmd
      ∧ (tFinalFails [[0xFA, 0xAA], [0xFA, 0xAB]]).gives
        (([] : List Event) ++ fastPathEvents [] ++ ([.wr finalBytes 4 false] : List Event))
      ∧ (tCtrl [false] (tBb Ste.reset [])).cfg.chip = .bb ∧ (tBb Ste.reset []).ste.dev ≠ .opened
      ∧ (tCtrl [false] (tBb Ste.reset [])).gives [.ctrl .init false]
      ∧ (tCtrl [true, false] (tBb Ste.reset [])).gives [.did .init, .ctrl (.setBitmode 0 .reset) false]
      ∧ (tCtrl [true, true, false] (tBb Ste.reset [])).gives
        [.did .init, .did (.setBitmode 0 .reset), .ctrl (.setBitmode 0 .syncBb) false] :=
  ⟨rfl, by rfl, rfl, by decide, by rfl, by rfl, by rfl⟩

theorem witness_OpenOnBb :
    (tBb Ste.reset []).cfg.chip = .bb ∧ (tBb Ste.reset []).ste.dev ≠ .opened
      ∧ (tBb Ste.reset []).gives
        [.did .init, .did (.setBitmode 0 .reset), .did (.setBitmode 0 .syncBb), .flush [] true] :=
  ⟨rfl, by decide, by rfl⟩

theorem witness_CloseResets :
    (tCmd tSpi0 []).ste.dev ≠ .closed ∧ (tCmd Ste.reset []).ste.dev = .closed := by decide

/-- T-CLK5 and T-CLK10: both clauses, at the ends of the range. -/
theorem witness_ClockIsOptimal :
    5 ∣ (tCmd tS0 []).cfg.fBaseHi ∧ 1 ≤ (tCmd tS0 []).cfg.fBaseHi
      ∧ (∃ a t, clockSelect (mkRat 30000000 65536) (tCmd tS0 []) = .ok a t)
      ∧ (∃ t, clockSelect (hz 90) (tCmd tS0 []) = .err .clockTooLow t) :=
  ⟨by decide, by decide, ⟨_, _, by rfl⟩, ⟨_, by rfl⟩⟩

theorem witness_ConnectChecksInOrder :
    (tCmd tI2c0 []).ste.dev = .opened
      ∧ (if (8 : Nat) % 8 ≠ 0 then some Err.bitsNotMultiple8
          else if (8 : Nat) ≠ 8 then some Err.bitsUnsupported
          else if min 50 (tCmd tI2c0 []).cfg.fBaseHi < (tCmd tI2c0 []).cfg.fMin then some Err.freqTooLow
          else none) = some .freqTooLow
      ∧ ¬min 10000000 (tCmd tI2c0 []).cfg.fBaseHi < (tCmd tI2c0 []).cfg.fMin ∧ Nat.testBit 0 2 = false
      ∧ ¬32 ≤ 0 ∧ (tCmd tI2c0 []).ste.usingI2c = true := by decide

/-- T-SC9, with the clock command, and T-SC11, without. -/
theorem witness_ConnectOnCmd :
    ((tCmd tS0 []).cfg.chip = .cmd ∧ (tCmd tS0 []).ste.dev = .opened ∧ Nat.testBit 0 2 = false
        ∧ (tCmd tS0 []).cfg.fMin ≤ min 100 (tCmd tS0 []).cfg.fBaseHi ∧ (tCmd tS0 []).ste.usingI2c = false
        ∧ clockPlan (tCmd tS0 []).cfg (mkRat 100 1) = some (true, 60000)
        ∧ (tCmd tS0 []).gives [.sent [0x8B, 0x86, 0x5F, 0xEA], .sent [0x8D, 0x9E, 0x00, 0x00, 0x80, 0x08, 0x0B]])
      ∧ ((tCmd tSpi0 []).ste.usingI2c = false ∧ Nat.testBit 3 2 = false
        ∧ clockPlan (tCmd tSpi0 []).cfg (mkRat 20000000 1) = some (false, 2)
        ∧ (tCmd tSpi0 []).gives [.sent [0x8D, 0x9E, 0x00, 0x00, 0x80, 0x09, 0x0B]]) :=
  ⟨⟨rfl, rfl, by decide, by decide, rfl, by decide, by rfl⟩, rfl, by decide, by decide, by rfl⟩

/-- T-BBC1 and T-BBC2. -/
theorem witness_ConnectOnBb :
    ((tBb tS0b [[0]]).cfg.chip = .bb ∧ (tBb tS0b [[0]]).ste.dev = .opened ∧ (tBb tS0b [[0]]).ste.mux = .syncBb
        ∧ (tBb tS0b [[0]]).ste.bbdir = (tBb tS0b [[0]]).ste.grpD.dir ∧ Nat.testBit 0 2 = false
        ∧ (tBb tS0b [[0]]).cfg.fMin ≤ min 1000000 (tBb tS0b [[0]]).cfg.fMaxBb ∧ (tBb tS0b [[0]]).ste.usingI2c = false
        ∧ (tBb tS0b [[0]]).gives [.did (.setRate 2000000), .did (.setBitmode 0x0B .syncBb), .sent [0x08], .got [0]])
      ∧ ((tBb tSpi0b [[0]]).ste.bbdir = (tBb tSpi0b [[0]]).ste.grpD.dir
        ∧ (tBb tSpi0b [[0]]).gives [.sent [0x09], .got [0]]) :=
  ⟨⟨rfl, rfl, rfl, rfl, by decide, by decide, rfl, by rfl⟩, rfl, by rfl⟩

/-- T-E7. -/
theorem witness_PacketsCheckedFirst :
    (tCmd tSpi0 []).ste.dev = .opened ∧ (tCmd tSpi0 []).ste.spi = some (tConn 10000000)
      ∧ (∀ p ∈ [txPacketOf [1] []], packetError p = none)
      ∧ (if (8 : Nat) % 8 ≠ 0 then some Err.bitsNotMultiple8
          else if ([1, 2] : List Byte) ≠ [] ∧ ([0] : List Byte) ≠ [] ∧ 2 ≠ 1 then some Err.lenMismatch
          else none) = some .lenMismatch
      ∧ (if ([] : List Byte) = [] ∧ ([] : List Byte) = [] then some Err.emptyPacket else none) = some .emptyPacket := by
  decide

/-- T-ST7 and T-ST1. -/
theorem witness_TransferOnCmd :
    (let s := tChunk4 (tCmd tSpi0 [[0xA0, 0xA1, 0xA2, 0xA3], [0xA4, 0xA5, 0xA6, 0xA7], [0xA8, 0xA9]])
      let p := txPacketOf [0, 1, 2, 3, 4, 5, 6, 7, 8, 9] (List.replicate 10 0)
      s.cfg.chip = .cmd ∧ s.ste.dev = .opened ∧ s.ste.spi = some (tConn 10000000) ∧ packetError p = none
        ∧ 1 ≤ s.cfg.pChunk
        ∧ s.gives (packetEvents (tConn 10000000) s.ste.grpD s.cfg.pChunk p
          [0xA0, 0xA1, 0xA2, 0xA3, 0xA4, 0xA5, 0xA6, 0xA7, 0xA8, 0xA9])
        ∧ s.ste.mux = .cmdStream ∧ s.bridge.aligned = true)
      ∧ packetError (txPacketOf [0x5A] []) = none
      ∧ (tCmd tSpi0 []).gives (packetEvents (tConn 10000000) tSpi0.grpD 512 (txPacketOf [0x5A] []) []) :=
  ⟨⟨rfl, rfl, rfl, by decide, by decide, by rfl, rfl, rfl⟩, by decide, by rfl⟩

/-- T-ST9, and the empty list. -/
theorem witness_PacketListOnCmd :
    let s := (tCmd tSpi0 [[0xEF, 0x40, 0x18]])
    let ps : List (Packet × List Byte) := [(txPacketOf [0x9F] [], []), (txPacketOf [] [0, 0, 0], [0xEF, 0x40, 0x18])]
    s.cfg.chip = .cmd ∧ s.ste.dev = .opened ∧ s.ste.spi = some (tConn 10000000) ∧ 1 ≤ s.cfg.pChunk
      ∧ (∀ x ∈ ps, packetError x.1 = none ∧ (hasR x.1 = true → x.2.length = x.1.r.length))
      ∧ s.gives (ps.flatMap fun x => packetEvents (tConn 10000000) s.ste.grpD s.cfg.pChunk x.1 x.2) ∧ s.gives []
      ∧ s.ste.mux = .cmdStream ∧ s.bridge.aligned = true :=
  ⟨rfl, rfl, rfl, by decide, by decide, by rfl, rfl, rfl, rfl⟩

/-- A read-only packet of two chunks, and a write-only one. -/
theorem witness_PacketStreams :
    (∃ t, exec (.spiTx [] [9, 8, 7, 6, 5]) (tChunk4 (tCmd tSpi0 [[1, 2, 3, 4], [5]])) = .next t
        ∧ t.results = ([] : List Result) ++ [⟨none, .bytes [1, 2, 3, 4, 5]⟩])
      ∧ (∃ t, exec (.spiTx [7] []) (tChunk4 (tCmd tSpi0 [])) = .next t
        ∧ t.results = ([] : List Result) ++ [⟨none, .bytes []⟩])
      ∧ (tChunk4 (tCmd tSpi0 [])).cfg.chip = .cmd ∧ (tChunk4 (tCmd tSpi0 [])).ste.spi = some (tConn 10000000)
      ∧ 1 ≤ (tChunk4 (tCmd tSpi0 [])).cfg.pChunk :=
  ⟨⟨_, rfl, by decide⟩, ⟨_, rfl, by decide⟩, rfl, rfl, by decide⟩

/-- T-BBT1. -/
theorem witness_TransferOnBb :
    let resp : List Byte := [8, 8, 0, 6, 7, 0, 1, 6, 7, 0, 1, 0, 1, 6, 7, 0, 1, 6, 7, 0]
    let s := tBb tSpi0b [resp]
    let ps : List (Packet × List Byte × List Byte) := [(txPacketOf [0xA5] [0], resp, [0xA5])]
    s.cfg.chip = .bb ∧ s.ste.dev = .opened ∧ s.ste.mux = .syncBb ∧ s.ste.spi = some (tConn 1000000)
      ∧ (∀ x ∈ ps, packetError x.1 = none ∧ x.2.1.length = 16 * max x.1.w.length x.1.r.length + 4
        ∧ x.2.2.length = x.1.r.length)
      ∧ (∀ j, j < 1 → ∀ k, k < 8 →
        (([0xA5] : List Byte).getD j 0).getLsbD (7 - k)
          = (resp.getD (2 + 16 * j + 2 * k + 1 + s.cfg.syncLag) 0).getLsbD 2)
      ∧ s.gives (ps.flatMap fun x => burstEvents (tConn 1000000) s.ste.grpD x.1 x.2.1) :=
  ⟨rfl, rfl, rfl, rfl, by decide, by decide, by rfl⟩

/-- T-BB1, at both lags. -/
theorem witness_BbExactInverse :
    let fr := bbFrameOf (tConn 1000000) ⟨0, 0, false⟩ (txPacketOf [0xA5] [0])
    let lb : List Byte := [8, 8, 0, 6, 7, 0, 1, 6, 7, 0, 1, 0, 1, 6, 7, 0, 1, 6, 7, 0]
    let lb0 : List Byte := [8, 0, 6, 7, 0, 1, 6, 7, 0, 1, 0, 1, 6, 7, 0, 1, 6, 7, 0, 8]
    lb.length = fr.length ∧ lb0.length = fr.length
      ∧ (∀ i, i < lb.length → 1 ≤ i → (lb.getD i 0).getLsbD 2 = (fr.getD (i - 1) 0).getLsbD 1)
      ∧ ∀ i, i < lb0.length → 0 ≤ i → (lb0.getD i 0).getLsbD 2 = (fr.getD (i - 0) 0).getLsbD 1 := by decide

theorem witness_SpiCloseReleases :
    (tCmd tSpi0 []).ste.dev = .opened ∧ (tCmd tSpi0 []).ste.spi ≠ none ∧ (tCmd tS0 []).ste.dev = .opened
      ∧ (tCmd tS0 []).ste.spi = none := by decide

/-- T-I1. -/
theorem witness_I2cOpens :
    (tCmd tS0 []).cfg.chip = .cmd ∧ (tCmd tS0 []).ste.dev = .opened ∧ (tCmd tS0 []).ste.usingSpi = false
      ∧ (tCmd tS0 []).ste.usingI2c = false
      ∧ clockPlan (tCmd tS0 []).cfg (mkRat (3 * (tCmd tS0 []).cfg.i2cRate) 2) = some (false, 200)
      ∧ (tCmd tS0 []).gives [.sent [0x8A, 0x86, 0xC7, 0x00], .sent [0x8C, 0x9E, 0x03, 0x00, 0x80, 0x03, 0x03]] :=
  ⟨rfl, rfl, rfl, rfl, by decide, by rfl⟩

/-- T-I7 and T-I8. -/
theorem witness_I2cSpeedSets :
    (tCmd tI2c0 []).cfg.chip = .cmd ∧ (tCmd tI2c0 []).ste.dev = .opened
      ∧ (tCmd tI2c0 []).ste.i2c = some ⟨100000⟩
      ∧ clockPlan (tCmd tI2c0 []).cfg (mkRat (3 * 62) 2) = some (true, 64517)
      ∧ (tCmd tI2c0 []).gives [.sent [0x8B, 0x86, 0x04, 0xFC]]
      ∧ clockPlan (tCmd tI2c0 []).cfg (mkRat (3 * 61) 2) = none :=
  ⟨rfl, rfl, rfl, by decide, by rfl, by decide⟩

/-- T-I14, at the highest address. -/
theorem witness_I2cTransfers :
    let s := (tCmd tI2c0 [[0xFE], [0], [0xDE], [0xAD]])
    s.cfg.chip = .cmd ∧ s.ste.dev = .opened ∧ s.ste.i2c = some ⟨100000⟩ ∧ 0xFF ≤ 0xFF
      ∧ (∀ a ∈ ([0xFE, 0] : List Byte), a.getLsbD 0 = false)
      ∧ s.gives (([.sent (encodeAll (i2cStartSeq s.cfg.k s.ste.grpD))] : List Event)
        ++ ackedEvents s.ste.grpD [(0xFF, 0xFE), (0x10, 0)] ++ readEvents s.ste.grpD [0xDE, 0xAD]
        ++ stopEvents s.cfg.k s.ste.grpD)
      ∧ s.ste.mux = .cmdStream ∧ s.bridge.aligned = true :=
  ⟨rfl, rfl, rfl, by decide, by decide, by rfl, rfl, rfl⟩

/-- L1.5, a NAK on the address, and T-I15, a NAK on a write byte. -/
theorem witness_NakAborts :
    (let s := (tCmd tI2c0 [[0x01]]);
      s.cfg.chip = .cmd ∧ s.ste.dev = .opened ∧ s.ste.i2c = some ⟨100000⟩ ∧ (0x01#8).getLsbD 0 = true
        ∧ ([BitVec.ofNat 8 0xA0, 0x42] : List Byte) = ([] : List Byte) ++ ([0xA0, 0x42] : List Byte)
        ∧ s.gives (([.sent (encodeAll (i2cStartSeq s.cfg.k s.ste.grpD))] : List Event) ++ ackedEvents s.ste.grpD []
          ++ ackedEvents s.ste.grpD [(0xA0, 0x01)] ++ stopEvents s.cfg.k s.ste.grpD))
      ∧ (let s := (tCmd tI2c0 [[0x00], [0x01]]);
        ([BitVec.ofNat 8 0xA0, 0x10, 0x20] : List Byte) = ([0xA0] : List Byte) ++ ([0x10, 0x20] : List Byte) ∧ (0x00#8).getLsbD 0 = false
          ∧ s.gives (([.sent (encodeAll (i2cStartSeq s.cfg.k s.ste.grpD))] : List Event) ++ ackedEvents s.ste.grpD [(0xA0, 0)]
            ++ ackedEvents s.ste.grpD [(0x10, 0x01)] ++ stopEvents s.cfg.k s.ste.grpD)) :=
  ⟨⟨rfl, rfl, rfl, by decide, by decide, by rfl⟩, by decide, by decide, by rfl⟩

/-- T-I12 and T-I13. -/
theorem witness_I2cCloses :
    (tCmd tI2c0 []).cfg.chip = .cmd ∧ (tCmd tI2c0 []).ste.dev = .opened ∧ (tCmd tI2c0 []).ste.i2c = some ⟨100000⟩
      ∧ (tCmd tI2c0 []).gives [.sent [0x8D, 0x9E, 0x00, 0x00]]
      ∧ (tFails 3 (tCmd tI2c0 [])).gives [.wr [0x8D, 0x9E, 0x00, 0x00] 3 false] :=
  ⟨rfl, rfl, rfl, by rfl, by rfl⟩

/-- T-G8, T-G2 and T-G4. -/
theorem witness_PinChecks :
    (tBb tS0b []).ste.dev = .opened ∧ (tBb tS0b []).cfg.chip = .bb ∧ (tCmd tSpi0 []).ste.dev = .opened
      ∧ (tCmd tSpi0 []).cfg.chip ≠ .bb ∧ (tCmd tSpi0 []).ste.usingSpi = true
      ∧ (¬∃ c ∈ (tCmd tSpi0 []).ste.spi, c.nocs = true) ∧ (tCmd tI2c0 []).ste.usingI2c = true := by
  refine ⟨rfl, rfl, rfl, by decide, rfl, ?_, rfl⟩
  rintro ⟨c, hc, h⟩
  cases hc
  exact Bool.noConfusion h

/-- T-G1 and T-G5. -/
theorem witness_PinSetOnCmd :
    (tCmd tSpi0 []).ready ∧ (tCmd tSpi0 []).ste.dev = .opened ∧ claimed (tCmd tSpi0 []).ste .d 4 = false
      ∧ (tCmd tSpi0 []).gives [.sent [0x80, 0x18, 0x1B]] ∧ (tCmd tSpi0 []).gives [.sent [0x80, 0x08, 0x0B]]
      ∧ claimed (tCmd tSpi0 []).ste .c 7 = false ∧ (tCmd tSpi0 []).gives [.sent [0x82, 0x80, 0x80]] :=
  ⟨by decide, rfl, by decide, by rfl, by rfl, by decide, by rfl⟩

/-- T-G9. -/
theorem witness_PinSetOnBb :
    (tBb tS0b [[0]]).cfg.chip = .bb ∧ (tBb tS0b [[0]]).ste.dev = .opened ∧ (tBb tS0b [[0]]).ste.mux = .syncBb
      ∧ (tBb tS0b [[0]]).ste.bbdir = (tBb tS0b [[0]]).ste.grpD.dir ∧ claimed (tBb tS0b [[0]]).ste .d 4 = false
      ∧ (tBb tS0b [[0]]).gives [.did (.setBitmode 0x10 .syncBb), .sent [0x10], .got [0]]
      ∧ (tBb tS0b [[0]]).gives [.sent [0x00], .got [0]] :=
  ⟨rfl, rfl, rfl, rfl, by decide, by rfl, by rfl⟩

/-- T-G6, T-G7 and, on BB, T-GRP6's read. -/
theorem witness_PinReads :
    ((tCmd tS0 [[0x20]]).ste.dev = .opened ∧ claimed (tCmd tS0 [[0x20]]).ste .d 5 = false
        ∧ (tCmd tS0 [[0x20]]).gives [.sent [0x81, 0x87], .got [0x20]])
      ∧ (claimed (tCmd tS0 [[0x7F]]).ste .c 7 = false ∧ (tCmd tS0 [[0x7F]]).gives [.sent [0x83, 0x87], .got [0x7F]])
      ∧ (tBb tS0b [[0x14]]).ste.dev = .opened ∧ claimed (tBb tS0b [[0x14]]).ste .d 2 = false
      ∧ (tBb tS0b [[0x14]]).gives [.sent [0x00], .got [0x14]]
      ∧ (tCmd tS0 [[0x20]]).ready ∧ (tBb tS0b [[0x14]]).ste.mux = .syncBb :=
  ⟨⟨rfl, by decide, by rfl⟩, ⟨by decide, by rfl⟩, rfl, by decide, by rfl, by decide, rfl⟩

theorem witness_ClaimsExclude :
    (tCmd tS0 []).cfg.chip = .cmd
      ∧ (∃ t, exec (.spiConnect 10000000 0 8) (tCmd tS0 []) = .next t ∧ t.results.getLast? = some .done)
      ∧ (∃ t, exec (.i2cOpen .float) (tCmd tS0 []) = .next t ∧ t.results.getLast? = some .done
        ∧ t.cfg.fMin ≤ min 10000000 t.cfg.fBaseHi) :=
  ⟨rfl, ⟨_, rfl, by decide⟩, ⟨_, rfl, by decide, by decide⟩⟩

theorem witness_ChecksBeforeIo :
    (Instr.gpioIn .d 0).isRequest = true ∧ (tCmd Ste.reset []).ste.dev ≠ .opened ∧ (tCmd tS0 []).ste.dev = .opened
      ∧ (tBb tS0b []).ste.dev = .opened ∧ (tBb tS0b []).cfg.chip = .bb ∧ (tCmd tS0 []).ste.spi = none
      ∧ (tCmd tS0 []).cfg.chip = .cmd ∧ (tCmd tS0 []).ste.i2c = none ∧ (tCmd tSpi0 []).ste.usingSpi = true
      ∧ (tCmd tI2c0 []).ste.i2c ≠ none ∧ 0xFF < 0x100 := by decide

/-- T-SC1. -/
theorem witness_ValidationLeavesNoTrace :
    ∃ t, exec (.spiConnect 10000000 4 8) (tCmd tS0 []) = .next t
      ∧ t.results = (tCmd tS0 []).results ++ [.failed .halfDuplex] ∧ Err.halfDuplex.class = .protocolViolation :=
  ⟨_, rfl, by decide, rfl⟩

/-- T-ST15, a failed read of group C, a failed clock write, and a burst that fails after one that was read back. -/
theorem witness_TransportErrorEffects :
    (∃ t, exec (.spiTx [1] [0]) (tFails 4 (tCmd tSpi0 [])) = .next t
        ∧ t.results = (tCmd tSpi0 []).results ++ [.failed (.transport (.write 4))]
        ∧ (Err.transport (.write 4)).class = .transport)
      ∧ (∃ t, exec (.gpioRead .c 0) (tCmd tS0 [[]]) = .next t
        ∧ t.results = (tCmd tS0 []).results ++ [.failed .truncated] ∧ Err.truncated.class = .transport)
      ∧ (∃ t, exec (.i2cSetSpeed 62) (tFails 2 (tCmd tI2c0 [])) = .next t
        ∧ t.results = (tCmd tI2c0 []).results ++ [.failed (.transport (.write 2))])
      ∧ (∃ t, exec (.spiTxPackets [txPacketOf [0xA5] [0], txPacketOf [1] [9]])
            (tBb tSpi0b [List.replicate 20 4, [1]]) = .next t
        ∧ t.results = (tBb tSpi0b []).results ++ [.failed .truncated] ∧ t.bufs = [[0xFF], [9]])
      ∧ (tCmd tSpi0 []).cfg.ok = true ∧ (tCmd tSpi0 []).cfg.chip = .cmd ∧ (tBb tSpi0b []).cfg.chip = .bb :=
  ⟨⟨_, rfl, by decide, rfl⟩, ⟨_, rfl, by decide, rfl⟩, ⟨_, rfl, by decide⟩, ⟨_, rfl, by decide, by decide⟩, by decide, rfl,
    rfl⟩

theorem witness_OneResultEach : Instr.spiClose.isRequest = true ∧ (Instr.i2cTx 0 [] []).isRequest = true := by decide

theorem witness_CacheTracksLastSet :
    [Instr.setBitsLow 1 1, .setBitsLow 2 3, .sendImmediate]
        = [.setBitsLow 1 1] ++ Instr.setBitsLow 2 3 :: [.sendImmediate]
      ∧ (∀ v d, Instr.setBitsLow v d ∉ [Instr.sendImmediate]) ∧ ∀ v d, Instr.setBitsHigh v d ∉ [Instr.setBitsLow 1 1] := by
  refine ⟨rfl, ?_, ?_⟩ <;> intro v d h <;> simp at h

theorem witness_TransportLoops :
    1 ≤ 4 ∧ ∀ a ∈ ([(4, true), (7, true)] : List (Nat × Bool)), a.2 = true ∧ 4 ≤ a.1 := by decide

/-- One state for each clause: parameters R8 forbids, a command, a sample, a response, bytes that are none of them, a named
instruction, a request, what is no request, and nothing. -/
theorem witness_StepRunsDecoded :
    (tCmd tS0 []).cfg.ok = true ∧ (tBb tS0b []).cfg.ok = true ∧ ({ Params.default with k := 0 } : Params).ok = false
      ∧ decode [0x11, 0x01] = .error (.truncated 0x11) ∧ decodeSample [] = .error .empty
      ∧ decodeResponse [0x00] = .error (.notMarker 0x00)
      ∧ decode [0x80, 0x08, 0x0B, 0x87] = .ok (.setBitsLow 8 0x0B, [0x87]) ∧ decode [0x87] = .ok (.sendImmediate, [])
      ∧ decodeSample [0x08] = .ok (.bbSample 0x08, []) ∧ decodeResponse [0xFA, 0xAA] = .ok (.badCmd 0xAA, [])
      ∧ (tCmd tS0 []).bench = [] ∧ (tCmd tS0 []).calls = [] ∧ Instr.devOpen.isRequest = true
      ∧ Instr.i2cStart.isRequest = false := by decide

/-- A host's first two requests on a fresh machine: the open and a connect. -/
theorem witness_LegalKept :
    ∃ t, ({ tCmd tS0 [] with calls := [.spiConnect 100 0 8] } : State).hostOnly
      ∧ ({ tCmd tS0 [] with calls := [.spiConnect 100 0 8] } : State).ste.legal .cmd
      ∧ step { tCmd tS0 [] with calls := [.spiConnect 100 0 8] } = .next t :=
  ⟨_, rfl, by decide, by rfl⟩

/-- An open I²C bus whose clock is being lowered. -/
def tClockCmd : State :=
  { tCmd { tI2c0 with clk := some (hz 30000000) } [] with calls := [.i2cSetSpeed 62] }

/-- A connection on BB whose sample rate is twice its clock, about to connect lower; the rate request fails. -/
def tClockBb : State :=
  let s := tCtrl [false] (tBb tSpi0b [])
  { s with calls := [.spiConnect 500000 0 8], bridge := { s.bridge with rate := some 2000000 } }

theorem witness_ClockCacheKept :
    (∃ t, tClockCmd.hostOnly ∧ tClockCmd.ste.ratesOk tClockCmd.cfg ∧ tClockCmd.clockBounded ∧ step tClockCmd = .next t)
      ∧ ∃ t, tClockBb.hostOnly ∧ tClockBb.ste.ratesOk tClockBb.cfg ∧ tClockBb.clockBounded ∧ step tClockBb = .next t := by
  refine ⟨⟨_, rfl, ⟨?_, ?_, ?_⟩, ⟨fun h => absurd rfl h, ?_⟩, rfl⟩, _, rfl, ⟨?_, ?_, ?_⟩, ⟨fun h => absurd rfl h, ?_⟩, rfl⟩
  all_goals intro x hx; cases hx
  · decide
  · decide
  · show tClockCmd.bridge.clock tClockCmd.cfg ≤ _
    decide
  · decide
  · decide
  · exact ⟨2000000, rfl, by decide⟩

theorem witness_PinsTrackedKept :
    ∃ t, ({ tCmd tS0 [] with calls := [.gpioOut .c 0 true] } : State).hostOnly ∧ tS0.legal .cmd
      ∧ ({ tCmd tS0 [] with calls := [.gpioOut .c 0 true] } : State).pinsTracked
      ∧ step { tCmd tS0 [] with calls := [.gpioOut .c 0 true] } = .next t :=
  ⟨_, rfl, by decide, fun _ => ⟨fun _ => ⟨rfl, rfl⟩, fun _ => ⟨rfl, rfl⟩⟩, by rfl⟩

theorem witness_ResponsesStayInStep :
    ∃ t, (Instr.gpioRead .d 5).isRequest = true ∧ (tCmd tS0 [[0x20]]).ste.dev = .opened
      ∧ (tCmd tS0 [[0x20]]).ste.legal .cmd ∧ (tCmd tS0 [[0x20]]).inStep
      ∧ exec (.gpioRead .d 5) (tCmd tS0 [[0x20]]) = .next t
      ∧ t.results = (tCmd tS0 [[0x20]]).results ++ [⟨none, .level true⟩] :=
  ⟨_, rfl, rfl, by decide, by decide, rfl, by decide⟩

end Sys2Proof.Tests
end

section
/-! PROOF. The legal states of R28 are kept by every host request. Three relations say how far an operation may move the
STE: `Ste.ClaimsKept` (nothing a claim or the device state rests on), `Ste.IoKept` (besides, not out of the open device's
mode and direction), `Ste.LegalKept` (not out of the legal states). Each operation is placed in the strongest one that
holds of it, and what a request keeps follows from the operations it is made of. -/

namespace Sys2Proof.Machine

/-! ### How far an operation moves the STE -/

/-- The device state, the claims and the two connection records are as before (R15, R20, R22, R24). -/
structure Ste.ClaimsKept (t u : Ste) : Prop where
  dev : u.dev = t.dev
  usingSpi : u.usingSpi = t.usingSpi
  usingI2c : u.usingI2c = t.usingI2c
  spi : u.spi = t.spi
  i2c : u.i2c = t.i2c

/-- What I/O on an open device keeps besides: the mode `DEV_OPEN` left (R16) and, on BB, a direction cache that agrees with
`bbdir` (R19). -/
structure Ste.IoKept (chip : Chip) (t u : Ste) : Prop extends Ste.ClaimsKept t u where
  mux : t.mux = openMux chip → u.mux = openMux chip
  bbdir : chip = .bb → t.bbdir = t.grpD.dir → u.bbdir = u.grpD.dir

/-- A legal state leads to a legal state (R28). -/
def Ste.LegalKept (chip : Chip) (t u : Ste) : Prop := t.legal chip → u.legal chip

/-- From `s` to `t` the parameters and the bench are unchanged, and the STE moved as `R` allows. -/
structure State.Moves (R : Chip → Ste → Ste → Prop) (s t : State) : Prop where
  cfg : t.cfg = s.cfg
  bench : t.bench = s.bench
  ste : R s.cfg.chip s.ste t.ste

/-- `s` and `t` hold the same claims. -/
abbrev State.ClaimsKept : State → State → Prop := State.Moves fun _ => Ste.ClaimsKept
/-- From `s` to `t` there was nothing but I/O. -/
abbrev State.IoKept : State → State → Prop := State.Moves Ste.IoKept
/-- `t` is legal if `s` is. -/
abbrev State.LegalKept : State → State → Prop := State.Moves Ste.LegalKept

theorem Ste.ClaimsKept.refl (t : Ste) : t.ClaimsKept t := ⟨rfl, rfl, rfl, rfl, rfl⟩

theorem Ste.IoKept.refl (chip : Chip) (t : Ste) : t.IoKept chip t := ⟨.refl t, id, fun _ => id⟩

theorem Ste.ClaimsKept.trans {t u v : Ste} (h : t.ClaimsKept u) (k : u.ClaimsKept v) : t.ClaimsKept v :=
  ⟨k.dev.trans h.dev, k.usingSpi.trans h.usingSpi, k.usingI2c.trans h.usingI2c, k.spi.trans h.spi, k.i2c.trans h.i2c⟩

theorem Ste.IoKept.trans {chip : Chip} {t u v : Ste} (h : t.IoKept chip u) (k : u.IoKept chip v) : t.IoKept chip v :=
  ⟨h.toClaimsKept.trans k.toClaimsKept, fun hm => k.mux (h.mux hm), fun hc hd => k.bbdir hc (h.bbdir hc hd)⟩

/-- Legality speaks of nothing but what `Ste.IoKept` keeps. -/
theorem Ste.IoKept.legal {chip : Chip} {t u : Ste} (h : t.IoKept chip u) : t.LegalKept chip u := by
  rintro ⟨hmux, hdir, hclaims⟩
  refine ⟨fun ho => h.mux (hmux (h.dev ▸ ho)), fun hc ho => h.bbdir hc (hdir hc (h.dev ▸ ho)), ?_⟩
  simpa only [h.usingSpi, h.usingI2c, h.spi, h.i2c] using hclaims

theorem State.Moves.trans {R : Chip → Ste → Ste → Prop} (hR : ∀ c, IsTrans Ste (R c)) {s t u : State}
    (h : s.Moves R t) (k : t.Moves R u) : s.Moves R u :=
  ⟨k.cfg.trans h.cfg, k.bench.trans h.bench, (hR _).trans _ _ _ h.ste (h.cfg ▸ k.ste)⟩

theorem State.IoKept.trans {s t u : State} (h : s.IoKept t) (k : t.IoKept u) : s.IoKept u :=
  State.Moves.trans (fun _ => ⟨fun _ _ _ => .trans⟩) h k

theorem State.ClaimsKept.trans {s t u : State} (h : s.ClaimsKept t) (k : t.ClaimsKept u) : s.ClaimsKept u :=
  State.Moves.trans (fun _ => ⟨fun _ _ _ => .trans⟩) h k

theorem State.LegalKept.trans {s t u : State} (h : s.LegalKept t) (k : t.LegalKept u) : s.LegalKept u :=
  ⟨k.cfg.trans h.cfg, k.bench.trans h.bench, fun hl => (h.cfg ▸ k.ste) (h.ste hl)⟩

theorem State.IoKept.claims {s t : State} (h : s.IoKept t) : s.ClaimsKept t := ⟨h.cfg, h.bench, h.ste.toClaimsKept⟩

theorem State.IoKept.legal {s t : State} (h : s.IoKept t) : s.LegalKept t := ⟨h.cfg, h.bench, h.ste.legal⟩

/-- What leaves `S` alone keeps everything. -/
theorem State.IoKept.of_ste_eq {s t : State} (hc : t.cfg = s.cfg) (hb : t.bench = s.bench) (ht : t.ste = s.ste) :
    s.IoKept t := ⟨hc, hb, ht ▸ .refl _ _⟩

theorem State.IoKept.refl (s : State) : s.IoKept s := .of_ste_eq rfl rfl rfl

theorem State.LegalKept.refl (s : State) : s.LegalKept s := (State.IoKept.refl s).legal

/-! ### Sequencing -/

@[simp] theorem Res.ignore_state {α : Type} (x : Res α) : x.ignore.state = x.state := by cases x <;> rfl

@[simp] theorem Res.reply_state {α : Type} (x : Res α) (f : α → State → Reply) : (x.reply f).state = x.state := by
  cases x <;> rfl

theorem Res.bind_eq_ok {α β : Type} {x : Res α} {f : α → State → Res β} {b : β} {t : State} :
    x.bind f = .ok b t ↔ ∃ a u, x = .ok a u ∧ f a u = .ok b t := by
  cases x <;> simp

theorem State.Moves.ok {R : Chip → Ste → Ste → Prop} {α : Type} {s t : State} {x : Res α} {a : α}
    (k : s.Moves R x.state) (h : x = .ok a t) : s.Moves R t := by subst h; exact k

theorem State.Moves.err {R : Chip → Ste → Ste → Prop} {α : Type} {s t : State} {x : Res α} {e : Err}
    (k : s.Moves R x.state) (h : x = .err e t) : s.Moves R t := by subst h; exact k

/-- An operation followed by another moves the STE as far as both do. -/
theorem Res.bind_moves {R : Chip → Ste → Ste → Prop} (hR : ∀ c, IsTrans Ste (R c)) {α β : Type} {s : State}
    {x : Res α} {f : α → State → Res β} (hx : s.Moves R x.state) (hf : ∀ a t, s.Moves R t → t.Moves R (f a t).state) :
    s.Moves R (x.bind f).state := by
  cases x with
  | ok a t => exact hx.trans hR (hf a t hx)
  | err e t => exact hx

theorem Res.bind_io {α β : Type} {s : State} {x : Res α} {f : α → State → Res β} (hx : s.IoKept x.state)
    (hf : ∀ a t, s.IoKept t → t.IoKept (f a t).state) : s.IoKept (x.bind f).state :=
  Res.bind_moves (fun _ => ⟨fun _ _ _ => .trans⟩) hx hf

theorem Res.bind_claims {α β : Type} {s : State} {x : Res α} {f : α → State → Res β} (hx : s.ClaimsKept x.state)
    (hf : ∀ a (t : State), t.ClaimsKept (f a t).state) : s.ClaimsKept (x.bind f).state :=
  Res.bind_moves (fun _ => ⟨fun _ _ _ => .trans⟩) hx fun a t _ => hf a t

/-- I/O, and then on success a change of the claims that is legal after it. -/
theorem Res.bind_legal {α β : Type} {s : State} {x : Res α} {f : α → State → Res β} (hx : s.IoKept x.state)
    (hf : ∀ a t, s.IoKept t → s.LegalKept (f a t).state) : s.LegalKept (x.bind f).state := by
  cases x with
  | ok a t => exact hf a t hx
  | err e t => exact State.IoKept.legal hx

/-! ### The group cache -/

theorem Ste.setIndet_io (chip : Chip) (t : Ste) (g : GroupId) (b : Bool) : t.IoKept chip (t.setIndet g b) := by
  cases g <;> exact ⟨⟨rfl, rfl, rfl, rfl, rfl⟩, id, fun _ => id⟩

theorem trackSamples_io (chip : Chip) (bs : List Byte) (t : Ste) : t.IoKept chip (trackSamples bs t) := by
  unfold trackSamples
  split
  · exact ⟨⟨rfl, rfl, rfl, rfl, rfl⟩, id, fun _ => id⟩
  · exact .refl _ _

/-- On CMD no direction rests on `bbdir`, so a group set may write one. -/
theorem Ste.setGrp_io (t : Ste) (g : GroupId) (v : Group) : t.IoKept .cmd (t.setGrp g v) := by
  cases g <;> exact ⟨⟨rfl, rfl, rfl, rfl, rfl⟩, id, nofun⟩

theorem trackSet_io (t : Ste) (i : Instr) : t.IoKept .cmd (trackSet t i) := by
  unfold trackSet
  split
  · exact t.setGrp_io _ _
  · exact t.setGrp_io _ _
  · exact .refl _ _

theorem trackFail_io (t : Ste) (i : Instr) : t.IoKept .cmd (trackFail t i) := by
  unfold trackFail
  split
  · exact t.setIndet_io _ _ _
  · exact t.setIndet_io _ _ _
  · exact .refl _ _

/-- What each command keeps, a write of commands keeps. -/
theorem Ste.foldl_io {chip : Chip} {f : Ste → Instr → Ste} (hf : ∀ (t : Ste) i, t.IoKept chip (f t i))
    (cs : List Instr) (t : Ste) : t.IoKept chip (cs.foldl f t) := by
  induction cs generalizing t with
  | nil => exact .refl _ _
  | cons i cs ih => exact (hf t i).trans (ih _)

theorem Ste.setClk_io (chip : Chip) (t : Ste) (f : Option Rat) : t.IoKept chip { t with clk := f } :=
  ⟨⟨rfl, rfl, rfl, rfl, rfl⟩, id, fun _ => id⟩

/-! ### The logical events -/

theorem emitSamples_io (bs : List Byte) (s : State) : s.IoKept (emitSamples bs s).state := by
  unfold emitSamples
  split
  · exact ⟨rfl, rfl, trackSamples_io _ bs s.ste⟩
  · exact ⟨rfl, rfl, s.ste.setIndet_io s.cfg.chip .d true⟩

theorem emitCmds_io (cs : List Instr) (s : State) : s.IoKept (emitCmds cs s).state := by
  unfold emitCmds
  split
  next => exact emitSamples_io _ s
  next hc =>
    split
    · exact ⟨rfl, rfl, hc ▸ Ste.foldl_io trackSet_io cs s.ste⟩
    · exact ⟨rfl, rfl, hc ▸ Ste.foldl_io trackFail_io cs s.ste⟩

theorem rd_io (n : Nat) (s : State) : s.IoKept (rd n s).state := by
  unfold rd
  split <;> exact .of_ste_eq rfl rfl rfl

theorem flush_io (s : State) : s.IoKept (flush s).state := by
  unfold flush
  dsimp only
  split <;> exact .of_ste_eq rfl rfl rfl

theorem flush_ste (s : State) : (flush s).state.ste = s.ste := by
  unfold flush
  dsimp only
  split <;> rfl

/-- A control request leaves the parameters and the bench, and does to `S` what it does, or nothing if it failed. -/
theorem ctrl_moves {R : Chip → Ste → Ste → Prop} {q : CtrlReq} {s : State}
    (hok : R s.cfg.chip s.ste (ctrlSte s.cfg.chip q s.ste)) (hfail : R s.cfg.chip s.ste s.ste) : s.Moves R (ctrl q s).state := by
  unfold ctrl
  dsimp only
  split
  · exact ⟨rfl, rfl, hok⟩
  · exact ⟨rfl, rfl, hfail⟩

theorem ctrl_ok_ste {q : CtrlReq} {s t : State} (h : ctrl q s = .ok () t) : t.ste = ctrlSte s.cfg.chip q s.ste := by
  unfold ctrl at h
  dsimp only at h
  split at h <;> cases h
  rfl

theorem ctrlSte_claims (chip : Chip) (q : CtrlReq) (t : Ste) : t.ClaimsKept (ctrlSte chip q t) := by
  cases q with
  | setBitmode mask mode => cases mode <;> cases chip <;> exact ⟨rfl, rfl, rfl, rfl, rfl⟩
  | _ => exact ⟨rfl, rfl, rfl, rfl, rfl⟩

theorem ctrl_claims (q : CtrlReq) (s : State) : s.ClaimsKept (ctrl q s).state :=
  ctrl_moves (ctrlSte_claims _ q s.ste) (.refl _)

theorem ctrl_setRate_io (r : Nat) (s : State) : s.IoKept (ctrl (.setRate r) s).state :=
  ctrl_moves (.refl _ _) (.refl _ _)

/-- On BB a direction request writes the cached direction and `bbdir` alike (R19, R74). -/
theorem ctrlSte_syncBb_io (mask : Byte) (t : Ste) : t.IoKept .bb (ctrlSte .bb (.setBitmode mask .syncBb) t) :=
  ⟨ctrlSte_claims _ _ t, fun _ => rfl, fun _ _ => rfl⟩

theorem ctrl_syncBb_io (mask : Byte) {s : State} (hc : s.cfg.chip = .bb) :
    s.IoKept (ctrl (.setBitmode mask .syncBb) s).state :=
  ctrl_moves (hc ▸ ctrlSte_syncBb_io mask s.ste) (.refl _ _)

theorem State.writeBuf_io (s : State) (j i : Nat) (v : List Byte) : s.IoKept (s.writeBuf j i v) := .of_ste_eq rfl rfl rfl

/-! ### The end of a request -/

/-- Ending a request, in success or with an error, moves no claim. -/
theorem finish_io (g : GroupId) (x : Res Reply) : x.state.IoKept (finish g x) := by
  cases x with
  | ok v s => exact .of_ste_eq rfl rfl rfl
  | err e s =>
    obtain ⟨b, hraise, -, -⟩ := s.raise_spec g e
    rw [finish_err, hraise]
    refine ⟨rfl, rfl, ?_⟩
    dsimp only
    split
    · exact s.ste.setIndet_io _ g true
    · exact .refl _ _

/-- A request whose body keeps legality answers a next state, and keeps it; `u` is `s` with the request's buffers loaded. -/
theorem request_legal {g : GroupId} {body : State → Res Reply} {s u : State} (hu : s.LegalKept u)
    (h : u.LegalKept (body u).state) : ∃ t, request g body u = .next t ∧ s.LegalKept t := by
  have hopen : u.LegalKept (whenOpen body u).state := by
    unfold whenOpen
    split
    · exact h
    · exact .refl u
  exact ⟨_, rfl, hu.trans (hopen.trans (finish_io g _).legal)⟩

/-! ### The serial engine -/

theorem clockSelect_io (f : Rat) (s : State) : s.IoKept (clockSelect f s).state := by
  unfold clockSelect
  split
  · exact .refl s
  next low d _ =>
    have hw := emitCmds_io (clockSeq low d) s
    split
    next t hx => exact State.IoKept.trans (hw.ok hx) ⟨rfl, rfl, t.ste.setClk_io _ _⟩
    next e t hx => exact State.IoKept.trans (hw.err hx) ⟨rfl, rfl, t.ste.setClk_io _ _⟩

theorem bbDirection_io (dir : Byte) {s : State} (hc : s.cfg.chip = .bb) : s.IoKept (bbDirection dir s).state := by
  unfold bbDirection
  split
  · exact ctrl_syncBb_io dir hc
  · exact .refl s

theorem bbGroupSet_io (val dir : Byte) {s : State} (hc : s.cfg.chip = .bb) : s.IoKept (bbGroupSet val dir s).state :=
  Res.bind_io (bbDirection_io dir hc) fun _ t _ =>
  Res.bind_io (emitSamples_io _ t) fun _ t _ =>
  Res.bind_io (rd_io 1 t) fun _ t _ => ⟨rfl, rfl, t.ste.setIndet_io t.cfg.chip .d false⟩

theorem groupSet_io (g : GroupId) (val dir : Byte) (s : State) : s.IoKept (groupSet g val dir s).state := by
  unfold groupSet
  split
  next => cases g <;> exact emitCmds_io _ s
  next hc => exact bbGroupSet_io val dir hc

theorem groupRead_io (g : GroupId) (s : State) : s.IoKept (groupRead g s).state := by
  refine Res.bind_io ?_ fun _ t _ => Res.bind_io (rd_io 1 t) fun _ t _ => .refl t
  split
  · cases g <;> exact emitCmds_io _ s
  · exact emitSamples_io _ s

/-! ### Opening and closing the device -/

theorem verifyProbe_io (i : Instr) (x : Byte) (s : State) : s.IoKept (verifyProbe i x s).state :=
  Res.bind_io (emitCmds_io _ s) fun _ t _ =>
  Res.bind_io (rd_io 2 t) fun _ t _ => by split <;> exact .refl t

theorem verifyMode_io (s : State) : s.IoKept (verifyMode s).state :=
  Res.bind_io (verifyProbe_io _ _ s) fun _ t _ =>
  Res.bind_io (verifyProbe_io _ _ t) fun _ _ _ => .of_ste_eq rfl rfl rfl

theorem flush_verifyMode_io (s : State) : s.IoKept ((flush s).bind fun _ s => verifyMode s).state :=
  Res.bind_io (flush_io s) fun _ t _ => verifyMode_io t

theorem fastPath_claims (s : State) : s.ClaimsKept (fastPath s).state :=
  Res.bind_claims (ctrl_claims _ s) fun _ t =>
  Res.bind_claims (ctrl_claims _ t) fun _ t =>
  Res.bind_claims (ctrl_claims _ t) fun _ t => (flush_verifyMode_io t).claims

/-- The fast path ends in the mode it commanded: the drain and the verification after the request leave it. -/
theorem fastPath_ok_mux {s t : State} (hc : s.cfg.chip = .cmd) (h : fastPath s = .ok () t) : t.ste.mux = openMux .cmd := by
  obtain ⟨⟨⟩, s₁, h₁, h⟩ := Res.bind_eq_ok.mp h
  obtain ⟨⟨⟩, s₂, h₂, h⟩ := Res.bind_eq_ok.mp h
  obtain ⟨⟨⟩, s₃, h₃, h⟩ := Res.bind_eq_ok.mp h
  have k₁ := (ctrl_claims _ s).ok h₁
  have k₂ := (ctrl_claims _ s₁).ok h₂
  have k₃ := (ctrl_claims _ s₂).ok h₃
  have hchip : s₃.cfg.chip = .cmd := by rw [k₃.cfg, k₂.cfg, k₁.cfg, hc]
  have hmode : s₃.ste.mux = openMux .cmd := by rw [ctrl_ok_ste h₃]; rfl
  exact hchip ▸ ((flush_verifyMode_io s₃).ok h).ste.mux (hchip ▸ hmode)

theorem resetAttempt_claims (s : State) : s.ClaimsKept (resetAttempt s).state :=
  Res.bind_claims (ctrl_claims _ s) fun _ t => by rw [Res.ignore_state]; exact (flush_io t).claims

theorem attempt_claims (first : Bool) (s : State) : s.ClaimsKept (attempt first s).state := by
  cases first with
  | true => exact fastPath_claims s
  | false => exact Res.bind_claims (resetAttempt_claims s) fun _ t => fastPath_claims t

theorem attempt_ok_mux {first : Bool} {s t : State} (hc : s.cfg.chip = .cmd) (h : attempt first s = .ok () t) :
    t.ste.mux = openMux .cmd := by
  cases first with
  | true => exact fastPath_ok_mux hc h
  | false =>
    obtain ⟨⟨⟩, u, hreset, hfast⟩ := Res.bind_eq_ok.mp h
    have hcfg : u.cfg = s.cfg := ((resetAttempt_claims s).ok hreset).cfg
    exact fastPath_ok_mux (hcfg ▸ hc) hfast

/-- A failed open keeps the claims, and a device that is not open has no other duty (R28, R150). -/
theorem Ste.ClaimsKept.legal_openFailed {chip : Chip} {t u : Ste} (h : t.ClaimsKept u) : t.LegalKept chip u.openFailed := by
  rintro ⟨-, -, hclaims⟩
  refine ⟨nofun, fun _ => nofun, ?_⟩
  simpa only [Ste.openFailed, h.usingSpi, h.usingI2c, h.spi, h.i2c] using hclaims

/-- A successful open in the personality's mode is legal, whatever was before it. -/
theorem Ste.legal_openDone {chip : Chip} {t : Ste} (h : t.mux = openMux chip) : (t.openDone chip).legal chip := by
  cases chip with
  | cmd => exact ⟨fun _ => h, nofun, nofun, rfl, rfl, nofun⟩
  | bb => exact ⟨fun _ => h, fun _ _ => rfl, nofun, rfl, rfl, fun _ => rfl⟩

/-- How an open that began at `s` may end: in success, legal, or in an error with the claims as they were. -/
def Res.OpenEnds (s : State) : Res Unit → Prop
  | .ok _ t => s.LegalKept t
  | .err _ t => s.ClaimsKept t

theorem Res.OpenEnds.bind {s : State} {x : Res Unit} {f : Unit → State → Res Unit} (hx : s.ClaimsKept x.state)
    (hf : ∀ t, x = .ok () t → s.ClaimsKept t → (f () t).OpenEnds s) : (x.bind f).OpenEnds s := by
  cases x with
  | ok a t => exact hf t rfl hx
  | err e t => exact hx

theorem Res.OpenEnds.orFailed {s : State} {x : Res Unit} (h : x.OpenEnds s) : s.LegalKept x.orFailed.state := by
  cases x with
  | ok a t => exact h
  | err e t => exact ⟨h.cfg, h.bench, h.ste.legal_openFailed⟩

theorem openFinal_ends {s t : State} (hc : s.cfg.chip = .cmd) (k : s.ClaimsKept t) (hm : t.ste.mux = openMux .cmd) :
    (openFinal t).OpenEnds s := by
  have hw := emitCmds_io openFinalSeq t
  refine .bind (State.ClaimsKept.trans k hw.claims) fun u hu ku => ⟨ku.cfg, ku.bench, fun _ => ?_⟩
  have hchip : t.cfg.chip = .cmd := k.cfg ▸ hc
  have hmux := (hw.ok hu).ste.mux
  rw [hchip] at hmux
  rw [hc]
  exact Ste.legal_openDone (hmux hm)

theorem openCmd_legal {s : State} (hc : s.cfg.chip = .cmd) : s.LegalKept (openCmd s).state := by
  unfold openCmd
  have hfirst := attempt_claims true s
  split
  next t h => exact (openFinal_ends hc (hfirst.ok h) (attempt_ok_mux hc h)).orFailed
  next e t h =>
    have k : s.ClaimsKept t := hfirst.err h
    have hsecond := State.ClaimsKept.trans k (attempt_claims false t)
    exact (Res.OpenEnds.bind hsecond fun u hu ku => openFinal_ends hc ku (attempt_ok_mux (k.cfg ▸ hc) hu)).orFailed

theorem openBb_legal {s : State} (hc : s.cfg.chip = .bb) : s.LegalKept (openBb s).state := by
  refine Res.OpenEnds.orFailed ?_
  refine .bind (ctrl_claims _ s) fun s₁ _ k₁ => ?_
  refine .bind (State.ClaimsKept.trans k₁ (ctrl_claims _ s₁)) fun s₂ _ k₂ => ?_
  refine .bind (State.ClaimsKept.trans k₂ (ctrl_claims _ s₂)) fun s₃ h₃ k₃ => ?_
  have hdrain : s₃.ClaimsKept (flush s₃).ignore.state := by rw [Res.ignore_state]; exact (flush_io s₃).claims
  refine .bind (State.ClaimsKept.trans k₃ hdrain) fun t ht kt => ⟨kt.cfg, kt.bench, fun _ => ?_⟩
  have hmode : s₃.ste.mux = openMux .bb := by
    rw [ctrl_ok_ste h₃, k₂.cfg, hc]
    rfl
  have hste : t.ste = s₃.ste := by
    rw [← flush_ste s₃, ← Res.ignore_state, ht]
    rfl
  rw [hc]
  exact Ste.legal_openDone (hste ▸ hmode)

theorem devOpen_legal (s : State) : s.LegalKept (devOpen s).state := by
  unfold devOpen
  split
  · exact .refl s
  · split
    next hc => exact openCmd_legal hc
    next hc => exact openBb_legal hc

theorem finishOpen_io (x : Res Unit) : x.state.IoKept (finishOpen x) := by
  cases x <;> exact .of_ste_eq rfl rfl rfl

theorem Ste.legal_reset (chip : Chip) : Ste.reset.legal chip :=
  ⟨nofun, fun _ => nofun, nofun, rfl, rfl, fun _ => rfl⟩

theorem devClose_legal (s : State) : s.LegalKept (devClose s).state := by
  unfold devClose
  split
  · exact .refl s
  · exact ⟨rfl, rfl, fun _ => Ste.legal_reset _⟩

/-! ### GPIO requests -/

theorem onPin_legal {g : GroupId} {i : Fin 8} {body : State → Res Reply} {s : State} (h : s.LegalKept (body s).state) :
    s.LegalKept (onPin g i body s).state := by
  unfold onPin
  split
  · exact .refl s
  · exact h

theorem gpioOut_io (g : GroupId) (i : Fin 8) (level : Bool) (s : State) : s.IoKept (gpioOut g i level s).state := by
  rw [gpioOut, Res.reply_state]
  exact groupSet_io g _ _ s

theorem gpioIn_io (g : GroupId) (i : Fin 8) (s : State) : s.IoKept (gpioIn g i s).state := by
  rw [gpioIn, Res.reply_state]
  exact groupSet_io g _ _ s

theorem gpioRead_io (g : GroupId) (i : Fin 8) (s : State) : s.IoKept (gpioRead g i s).state := by
  rw [gpioRead, Res.reply_state]
  exact groupRead_io g s

/-! ### I²C requests -/

/-- An I²C request on its personality, with the parameters known to be those of CMD. -/
theorem onCmd_legal {body : State → Res Reply} {s : State} (h : s.cfg.chip = .cmd → s.LegalKept (body s).state) :
    s.LegalKept (onCmd body s).state := by
  unfold onCmd
  split
  next hc => exact h hc
  next => exact .refl s

theorem withI2c_legal {body : I2cBus → State → Res Reply} {s : State}
    (h : ∀ b, s.ste.i2c = some b → s.LegalKept (body b s).state) : s.LegalKept (withI2c body s).state := by
  unfold withI2c
  split
  next => exact .refl s
  next b hb => exact h b hb

/-- A bus may be claimed, and its record replaced, where SPI has no claim (R20, R24). -/
theorem Ste.legal_claimI2c {t : Ste} (b : I2cBus) (hspi : t.usingSpi = false) (h : t.legal .cmd) :
    ({ t with i2c := some b, usingI2c := true } : Ste).legal .cmd := by
  obtain ⟨hmux, -, -, hs, -, -⟩ := h
  exact ⟨hmux, nofun, fun hboth => absurd (hspi.symm.trans hboth.1) nofun, hs, rfl, nofun⟩

theorem Ste.legal_setI2cRate {t : Ste} (b : I2cBus) (hi2c : t.i2c.isSome = true) {chip : Chip} (h : t.legal chip) :
    ({ t with i2c := some b } : Ste).legal chip := by
  obtain ⟨hmux, hdir, hboth, hs, hi, hbb⟩ := h
  exact ⟨hmux, hdir, hboth, hs, hi2c.symm.trans hi, hbb⟩

theorem Ste.legal_releaseI2c {chip : Chip} {t : Ste} (h : t.legal chip) :
    ({ t with i2c := none, usingI2c := false } : Ste).legal chip := by
  obtain ⟨hmux, hdir, -, hs, -, -⟩ := h
  exact ⟨hmux, hdir, fun hboth => Bool.noConfusion hboth.2, hs, rfl, fun _ => rfl⟩

theorem i2cOpen_legal (pull : Pull) {s : State} (hc : s.cfg.chip = .cmd) : s.LegalKept (i2cOpen pull s).state := by
  unfold i2cOpen
  split
  · exact .refl s
  · split
    · exact .refl s
    next hfree =>
      have hspi : s.ste.usingSpi = false := (Bool.or_eq_false_iff.mp (Bool.eq_false_iff.mpr hfree)).1
      refine Res.bind_legal (clockSelect_io _ s) fun _ t k => ?_
      refine State.LegalKept.trans k.legal (Res.bind_legal (emitCmds_io _ t) fun _ u k' => ?_)
      refine ⟨k'.cfg, k'.bench, fun hl => ?_⟩
      have hchip : t.cfg.chip = .cmd := k.cfg ▸ hc
      have hu := k'.ste.legal hl
      rw [hchip] at hu ⊢
      exact Ste.legal_claimI2c _ (by rw [k'.ste.usingSpi, k.ste.usingSpi, hspi]) hu

theorem i2cSetSpeed_legal (rate : Nat) {s : State} (h : s.ste.i2c.isSome = true) :
    s.LegalKept (i2cSetSpeed rate s).state :=
  Res.bind_legal (clockSelect_io _ s) fun _ _ k =>
    ⟨k.cfg, k.bench, fun hl => Ste.legal_setI2cRate _ (k.ste.i2c ▸ h) (k.ste.legal hl)⟩

theorem i2cClose_legal (s : State) : s.LegalKept (i2cClose s).state := by
  rw [i2cClose, Res.reply_state]
  have hrelease : s.LegalKept (s.withSte fun t => { t with i2c := none, usingI2c := false }) :=
    ⟨rfl, rfl, Ste.legal_releaseI2c⟩
  exact hrelease.trans (emitCmds_io _ _).legal

theorem i2cStopIdle_io (s : State) : s.IoKept (i2cStopIdle s).state := emitCmds_io _ s

theorem i2cWriteByte_io (b : Byte) (s : State) : s.IoKept (i2cWriteByte b s).state :=
  Res.bind_io (emitCmds_io _ s) fun _ t _ =>
  Res.bind_io (rd_io 1 t) fun _ t _ => by
    split
    · exact Res.bind_io (i2cStopIdle_io t) fun _ t _ => .refl t
    · exact .refl t

theorem i2cWriteBytes_io (bs : List Byte) (s : State) : s.IoKept (i2cWriteBytes bs s).state := by
  induction bs generalizing s with
  | nil => exact .refl s
  | cons b bs ih => exact Res.bind_io (i2cWriteByte_io b s) fun _ t _ => ih t

theorem i2cReadBytes_io (count j : Nat) (s : State) : s.IoKept (i2cReadBytes count j s).state := by
  induction count generalizing j s with
  | zero => exact .refl s
  | succ count ih =>
    exact Res.bind_io (emitCmds_io _ s) fun _ t _ =>
      Res.bind_io (rd_io 1 t) fun x t _ => State.IoKept.trans (t.writeBuf_io 0 j x) (ih _ _)

theorem i2cTx_io (addr : Nat) (w : List Byte) (len : Nat) (s : State) : s.IoKept (i2cTx addr w len s).state := by
  unfold i2cTx
  split
  · exact .refl s
  · exact Res.bind_io (emitCmds_io _ s) fun _ t _ =>
      Res.bind_io (i2cWriteBytes_io _ t) fun _ t _ =>
      Res.bind_io (i2cReadBytes_io _ _ t) fun _ t _ =>
      Res.bind_io (i2cStopIdle_io t) fun _ t _ => .refl t

/-! ### SPI requests -/

/-- A connection may be claimed, anew too, where I²C has no claim (R20, R22). -/
theorem Ste.legal_claimSpi {chip : Chip} {t : Ste} (c : SpiConn) (hi2c : t.usingI2c = false) (h : t.legal chip) :
    (t.claimSpi c).legal chip := by
  obtain ⟨hmux, hdir, -, -, hi, hbb⟩ := h
  exact ⟨hmux, hdir, fun hboth => absurd (hi2c.symm.trans hboth.2) nofun, rfl, hi, hbb⟩

theorem Ste.legal_releaseSpi {chip : Chip} {t : Ste} (h : t.legal chip) :
    ({ t with spi := none, usingSpi := false } : Ste).legal chip := by
  obtain ⟨hmux, hdir, -, -, hi, hbb⟩ := h
  exact ⟨hmux, hdir, fun hboth => Bool.noConfusion hboth.1, rfl, hi, hbb⟩

/-- A connect passes its checks only while I²C has no claim (R100). -/
theorem spiCheck_ok_usingI2c {p : Params} {t : Ste} {f mode bits : Nat} {c : SpiConn}
    (h : spiCheck p t f mode bits = .ok c) : t.usingI2c = false := by
  unfold spiCheck at h
  dsimp only at h
  split at h
  · cases h
  · split at h
    · cases h
    · split at h
      · cases h
      · split at h
        · cases h
        next hfree => exact Bool.eq_false_iff.mpr hfree

theorem connectClock_io (c : SpiConn) (s : State) : s.IoKept (connectClock c s).state := by
  unfold connectClock
  split
  · exact Res.bind_io (clockSelect_io _ s) fun _ t _ => .refl t
  · exact .refl s

theorem connectRate_io (c : SpiConn) (s : State) : s.IoKept (connectRate c s).state := by
  unfold connectRate
  have hrate := ctrl_setRate_io (2 * c.freq) s
  split
  · split
    next t h => exact State.IoKept.trans (hrate.ok h) ⟨rfl, rfl, t.ste.setClk_io _ _⟩
    next e t h => exact State.IoKept.trans (hrate.err h) ⟨rfl, rfl, t.ste.setClk_io _ _⟩
  · exact .refl s

theorem connectIo_io (c : SpiConn) (s : State) : s.IoKept (connectIo c s).state := by
  unfold connectIo
  split
  next => exact Res.bind_io (connectClock_io c s) fun _ t _ => emitCmds_io _ t
  next hc => exact Res.bind_io (connectRate_io c s) fun _ t k => bbGroupSet_io _ _ (k.cfg ▸ hc)

theorem spiConnect_legal (f mode bits : Nat) (s : State) : s.LegalKept (spiConnect f mode bits s).state := by
  unfold spiConnect
  split
  next => exact .refl s
  next c hcheck =>
    refine Res.bind_legal (connectIo_io c s) fun _ t k => ⟨k.cfg, k.bench, fun hl => ?_⟩
    exact Ste.legal_claimSpi c (k.ste.usingI2c.trans (spiCheck_ok_usingI2c hcheck)) (k.ste.legal hl)

theorem readChunk_io (p : Packet) (j k : Nat) (s : State) : s.IoKept (readChunk p j k s).state := by
  unfold readChunk
  split
  · exact Res.bind_io (rd_io _ s) fun _ t _ => t.writeBuf_io _ _ _
  · exact .refl s

theorem txChunks_io (c : SpiConn) (p : Packet) (j count k : Nat) (s : State) :
    s.IoKept (txChunks c p j count k s).state := by
  induction count generalizing k s with
  | zero => exact .refl s
  | succ count ih =>
    exact Res.bind_io (emitCmds_io _ s) fun _ t _ => Res.bind_io (readChunk_io p j _ t) fun _ t _ => ih _ t

theorem emitTrailer_io (c : SpiConn) (s : State) : s.IoKept (emitTrailer c s).state := by
  unfold emitTrailer
  split
  · exact .refl s
  · exact emitCmds_io _ s

theorem txPacket_io (c : SpiConn) (p : Packet) (j : Nat) (s : State) : s.IoKept (txPacket c p j s).state :=
  Res.bind_io (emitCmds_io _ s) fun _ t _ =>
  Res.bind_io (txChunks_io c p j _ 1 t) fun _ t _ =>
  Res.bind_io (readChunk_io p j _ t) fun _ t _ => emitTrailer_io c t

theorem bbPacket_io (c : SpiConn) (p : Packet) (j : Nat) (s : State) : s.IoKept (bbPacket c p j s).state :=
  Res.bind_io (emitSamples_io _ s) fun _ t _ =>
  Res.bind_io (rd_io _ t) fun _ t _ => by
    rw [Res.state_ok]
    split
    · exact t.writeBuf_io _ _ _
    · exact .refl t

theorem sendPacket_io (c : SpiConn) (p : Packet) (j : Nat) (s : State) : s.IoKept (sendPacket c p j s).state := by
  unfold sendPacket
  split
  · exact txPacket_io c p j s
  · exact bbPacket_io c p j s

theorem sendPackets_io (c : SpiConn) (j : Nat) (ps : List Packet) (s : State) :
    s.IoKept (sendPackets c j ps s).state := by
  induction ps generalizing j s with
  | nil => exact .refl s
  | cons p ps ih => exact Res.bind_io (sendPacket_io c p j s) fun _ t _ => ih _ t

theorem spiTxPackets_io (pkts : List Packet) (s : State) : s.IoKept (spiTxPackets pkts s).state := by
  unfold spiTxPackets
  split
  · exact .refl s
  · split
    · exact .refl s
    · exact sendPackets_io _ 0 pkts s

theorem spiClose_legal (s : State) : s.LegalKept (spiClose s).state := by
  unfold spiClose
  split
  · exact .refl s
  · exact ⟨rfl, rfl, Ste.legal_releaseSpi⟩

/-! ### One host request, and one step -/

theorem State.loadBufs_legal (s : State) (rs : List (List Byte)) : s.LegalKept (s.loadBufs rs) :=
  ⟨rfl, rfl, id⟩

/-- A host request always answers a next state, with the parameters and the bench as they were, and legal if the state it
began in was (R28). -/
theorem exec_request_legal {i : Instr} (hi : i.isRequest = true) (s : State) :
    ∃ t, exec i s = .next t ∧ s.LegalKept t := by
  cases i with
  | devOpen => exact ⟨_, rfl, State.LegalKept.trans (devOpen_legal s) (finishOpen_io _).legal⟩
  | devClose => exact ⟨_, rfl, State.LegalKept.trans (devClose_legal s) (finish_io _ _).legal⟩
  | spiConnect f mode bits => exact request_legal (.refl s) (spiConnect_legal f mode bits s)
  | spiTx w r =>
    refine request_legal (s.loadBufs_legal [r]) ?_
    rw [Res.reply_state]
    exact (spiTxPackets_io _ _).legal
  | spiTxPackets pkts =>
    refine request_legal (s.loadBufs_legal _) ?_
    rw [Res.reply_state]
    exact (spiTxPackets_io pkts _).legal
  | spiClose => exact request_legal (.refl s) (spiClose_legal s)
  | i2cOpen pull => exact request_legal (.refl s) (onCmd_legal (i2cOpen_legal pull))
  | i2cSetSpeed rate =>
    exact request_legal (.refl s) (onCmd_legal fun _ => withI2c_legal fun _ hb =>
      i2cSetSpeed_legal rate (Option.isSome_of_eq_some hb))
  | i2cTx addr w r =>
    exact request_legal (s.loadBufs_legal [r]) (onCmd_legal fun _ => withI2c_legal fun _ _ => (i2cTx_io addr w _ _).legal)
  | i2cClose => exact request_legal (.refl s) (onCmd_legal fun _ => withI2c_legal fun _ _ => i2cClose_legal s)
  | gpioOut g n level => exact request_legal (.refl s) (onPin_legal (gpioOut_io g n level s).legal)
  | gpioIn g n => exact request_legal (.refl s) (onPin_legal (gpioIn_io g n s).legal)
  | gpioRead g n => exact request_legal (.refl s) (onPin_legal (gpioRead_io g n s).legal)
  | _ => cases hi

/-- With an empty bench a step that answers a next state waited, or took the first call and ran that host request. -/
theorem step_hostOnly_cases {s t : State} (hb : s.hostOnly) (h : step s = .next t) :
    t = s ∨ ∃ i calls, s.calls = i :: calls ∧ i.isRequest = true ∧ exec i { s with calls := calls } = .next t := by
  have hbench : s.bench = [] := hb
  unfold step fetch at h
  rw [hbench] at h
  split at h
  · cases hcalls : s.calls with
    | nil =>
      rw [hcalls] at h
      cases h
      exact .inl rfl
    | cons i calls =>
      rw [hcalls] at h
      cases hi : i.isRequest with
      | true => exact .inr ⟨i, calls, rfl, hi, by simpa [hi, hbench] using h⟩
      | false => simp [hi] at h
  · cases h

/-- Settles O55: a step that does not wait runs one host request, and each of them keeps legality. -/
theorem legalKept : Obligations.LegalKept := by
  intro s t hhost hlegal hstep
  obtain rfl | ⟨i, calls, -, hreq, hexec⟩ := step_hostOnly_cases hhost hstep
  · exact ⟨hhost, hlegal⟩
  · obtain ⟨u, hu, hkept⟩ := exec_request_legal hreq { s with calls := calls }
    obtain rfl : t = u := by rw [hexec] at hu; cases hu; rfl
    exact ⟨hkept.bench.trans hhost, hkept.cfg ▸ hkept.ste hlegal⟩

end Sys2Proof.Machine
end

section
/-! PROOF. The length of a command, told by its opcode and length field (R70). `commandLength` gets one equation for each
kind of opcode; the opcode of a data shift gives back its selectors, so the same equations tell the length of every
command's own bytes. -/

namespace Sys2Proof

/-! ### The opcodes outside the data-shift family, by length -/

/-- The opcodes of R70's 3-byte commands. -/
def threeByteOpcodes : List Byte := [OPC.setBitsLow, OPC.setBitsHigh, OPC.setDivisor, OPC.driveZeroOnly]

/-- The opcodes of R70's 1-byte commands. -/
def oneByteOpcodes : List Byte :=
  [OPC.readBitsLow, OPC.readBitsHigh, OPC.sendImmediate, OPC.div5Off, OPC.div5On, OPC.clk3On, OPC.clk3Off, OPC.probe1,
    OPC.probe2]

theorem mem_plainOpcodes_iff {op : Byte} : op ∈ plainOpcodes ↔ op ∈ threeByteOpcodes ++ oneByteOpcodes :=
  List.Perm.mem_iff (by decide)

theorem mem_threeByteOpcodes_iff {op : Byte} :
    op ∈ threeByteOpcodes
      ↔ op = OPC.setBitsLow ∨ op = OPC.setBitsHigh ∨ op = OPC.setDivisor ∨ op = OPC.driveZeroOnly := by
  simp [threeByteOpcodes]

theorem oneByteOpcodes_disjoint : ∀ op ∈ oneByteOpcodes, op ∉ threeByteOpcodes := by decide

theorem isDataShift_of_mem_plainOpcodes : ∀ op ∈ plainOpcodes, isDataShift op = false := by decide

theorem isDataShift_iff {op : Byte} : isDataShift op = true ↔ op &&& 0xC0 = 0 ∧ op &&& 0x30 ≠ 0 := by
  rw [isDataShift, Bool.and_eq_true, decide_eq_true_iff, decide_eq_true_iff]
  rfl

theorem not_mem_plainOpcodes_of_isDataShift {op : Byte} (h : isDataShift op = true) : op ∉ plainOpcodes := fun hop =>
  Bool.noConfusion ((isDataShift_of_mem_plainOpcodes op hop).symm.trans h)

/-! ### The length told for each kind of opcode -/

theorem commandLength_of_threeByte {op : Byte} (h : op ∈ threeByteOpcodes) (rest : List Byte) :
    commandLength (op :: rest) = some 3 :=
  if_pos (mem_threeByteOpcodes_iff.mp h)

theorem commandLength_of_oneByte {op : Byte} (h : op ∈ oneByteOpcodes) (rest : List Byte) :
    commandLength (op :: rest) = some 1 := by
  have hthree := mt mem_threeByteOpcodes_iff.mpr (oneByteOpcodes_disjoint op h)
  have hplain : op ∈ plainOpcodes := mem_plainOpcodes_iff.mpr (List.mem_append_right _ h)
  exact (if_neg hthree).trans (if_pos (List.contains_iff_mem.mpr hplain))

theorem not_mem_threeByteOpcodes_of_not_mem_plainOpcodes {op : Byte} (h : op ∉ plainOpcodes) :
    op ∉ threeByteOpcodes := fun hop => h (mem_plainOpcodes_iff.mpr (List.mem_append_left _ hop))

theorem commandLength_of_unlisted {op : Byte} (hs : isDataShift op = false) (hp : op ∉ plainOpcodes)
    (rest : List Byte) : commandLength (op :: rest) = none := by
  have hthree := mt mem_threeByteOpcodes_iff.mpr (not_mem_threeByteOpcodes_of_not_mem_plainOpcodes hp)
  exact (if_neg hthree).trans ((if_neg (mt List.contains_iff_mem.mp hp)).trans (if_neg (Bool.eq_false_iff.mp hs)))

section
variable {op : Byte} (hs : isDataShift op = true)
include hs

theorem commandLength_of_bitShift (hb : op &&& OPC.dsBits ≠ 0) (rest : List Byte) :
    commandLength (op :: rest) = some (if op &&& OPC.dsOut ≠ 0 then 3 else 2) := by
  have hp := not_mem_plainOpcodes_of_isDataShift hs
  have hthree := mt mem_threeByteOpcodes_iff.mpr (not_mem_threeByteOpcodes_of_not_mem_plainOpcodes hp)
  exact (if_neg hthree).trans ((if_neg (mt List.contains_iff_mem.mp hp)).trans ((if_pos hs).trans (if_pos hb)))

theorem commandLength_of_byteShift (hb : op &&& OPC.dsBits = 0) (lo hi : Byte) (rest : List Byte) :
    commandLength (op :: lo :: hi :: rest)
      = some (if op &&& OPC.dsOut ≠ 0 then 3 + (readField16 lo hi + 1) else 3) := by
  have hp := not_mem_plainOpcodes_of_isDataShift hs
  have hthree := mt mem_threeByteOpcodes_iff.mpr (not_mem_threeByteOpcodes_of_not_mem_plainOpcodes hp)
  rw [commandLength, if_neg hthree, if_neg (mt List.contains_iff_mem.mp hp), if_pos hs, if_neg (not_not_intro hb)]

end

/-! ### The opcode of a data shift (R58) -/

/-- The six selector bits are read back from the opcode they make. -/
@[simp] theorem ShiftSel.ofOpcode_opcode (sel : ShiftSel) : ShiftSel.ofOpcode sel.opcode = sel := by
  have hbits : ∀ inn out lsb inFall bits outFall : Bool,
      ShiftSel.ofOpcode (ShiftSel.mk inn out lsb inFall bits outFall).opcode
        = ⟨inn, out, lsb, inFall, bits, outFall⟩ := by
    decide
  exact hbits ..

theorem ShiftSel.opcode_bits (sel : ShiftSel) : sel.opcode &&& OPC.dsBits ≠ 0 ↔ sel.bits = true :=
  decide_eq_true_iff.symm.trans (Bool.eq_iff_iff.mp (congrArg ShiftSel.bits sel.ofOpcode_opcode))

theorem ShiftSel.opcode_out (sel : ShiftSel) : sel.opcode &&& OPC.dsOut ≠ 0 ↔ sel.out = true :=
  decide_eq_true_iff.symm.trans (Bool.eq_iff_iff.mp (congrArg ShiftSel.out sel.ofOpcode_opcode))

@[simp] theorem ShiftSel.isDataShift_opcode (sel : ShiftSel) : isDataShift sel.opcode = (sel.inn || sel.out) := by
  have hbits : ∀ inn out lsb inFall bits outFall : Bool,
      isDataShift (ShiftSel.mk inn out lsb inFall bits outFall).opcode = (inn || out) := by
    decide
  exact hbits ..

/-! ### The length of a command's own bytes -/

/-- What well-formedness says of a data shift: it has a direction, its count is in its field's range, and its payload is as
long as its count asks where it shifts out (R58, R60, R61). -/
theorem ShiftSel.wf_iff {sel : ShiftSel} {n : Nat} {p : List Byte} :
    sel.wf n p = true
      ↔ (sel.inn || sel.out) = true ∧ 1 ≤ n ∧ n ≤ (if sel.bits then 8 else lenMax)
        ∧ p.length = if sel.out then (if sel.bits then 1 else n) else 0 := by
  cases hb : sel.bits <;> simp [ShiftSel.wf, hb, and_assoc]

theorem commandLength_encodeShift {sel : ShiftSel} {n : Nat} {p : List Byte} (h : sel.wf n p = true)
    (rest : List Byte) : commandLength (encodeShift sel n p ++ rest) = some (encodeShift sel n p).length := by
  obtain ⟨hdir, hpos, hmax, hlen⟩ := ShiftSel.wf_iff.mp h
  have hs : isDataShift sel.opcode = true := sel.isDataShift_opcode.trans hdir
  cases hb : sel.bits with
  | true =>
    have hbits := sel.opcode_bits.mpr hb
    simp only [encodeShift, hb, if_true, List.cons_append]
    simp only [commandLength_of_bitShift hs hbits, sel.opcode_out]
    cases ho : sel.out <;> simp [hlen, hb, ho]
  | false =>
    have hbytes := not_not.mp (mt sel.opcode_bits.mp (Bool.eq_false_iff.mp hb))
    have hfield : n - 1 < 65536 := by
      simp only [hb, Bool.false_eq_true, if_false, lenMax] at hmax
      omega
    simp only [encodeShift, hb, field16, Bool.false_eq_true, if_false, List.cons_append]
    simp only [commandLength_of_byteShift hs hbytes, Machine.readField16_field _ hfield, sel.opcode_out,
      Nat.sub_add_cancel hpos, Nat.add_comm 3 n]
    cases ho : sel.out <;> simp [hlen, hb, ho]

theorem commandLength_encodePlain {i : Instr} (h : i.isPlain = true) (rest : List Byte) :
    commandLength (encodePlain i ++ rest) = some (encodePlain i).length := by
  cases i with
  | setBitsLow | setBitsHigh | setDivisor | driveZeroOnly => exact commandLength_of_threeByte (by decide) _
  | readBitsLow | readBitsHigh | sendImmediate | div5Off | div5On | clk3PhaseOn | clk3PhaseOff | probe1 | probe2 =>
    exact commandLength_of_oneByte (by decide) _
  | _ => cases h

/-- A well-formed data-shift row is a well-formed shift of its row's selectors. -/
theorem Instr.shift?_wf {i : Instr} {sel : ShiftSel} {n : Nat} {p : List Byte} (hi : i.shift? = some (sel, n, p))
    (h : i.wf = true) : sel.wf n p = true := by
  cases i with
  | dataShift =>
    cases hi
    exact h
  | shiftBytesOut10 | shiftBytesOut11 | shiftBytesOut18 | shiftBytesOut19 | shiftBytesIn | shiftBytesInout31
  | shiftBytesInout34 | shiftBytesInout39 | shiftBytesInout3C | shiftBitsIn | shiftBitsOut =>
    cases hi
    exact Bool.and_eq_true_iff.mpr ⟨h, decide_eq_true rfl⟩
  | _ => cases hi

theorem commandLength_encode {i : Instr} (hc : i.isCommand = true) (h : i.wf = true) (rest : List Byte) :
    commandLength (encode i ++ rest) = some (encode i).length := by
  cases hi : i.shift? with
  | some shift =>
    obtain ⟨sel, n, p⟩ := shift
    simpa only [encode, hi] using commandLength_encodeShift (Instr.shift?_wf hi h) rest
  | none =>
    have hplain : i.isPlain = true := by simpa [Instr.isCommand, hi] using hc
    simpa only [encode, hi] using commandLength_encodePlain hplain rest

/-- Settles O11: one equation of `commandLength` for each clause of R70. -/
theorem lengthDecoding : Obligations.LengthDecoding := by
  refine ⟨fun op lo hi rest h7 hdir hb => ?_, fun op rest h7 hdir hb => ?_, fun op h rest => ?_, fun op h rest => ?_,
    fun op rest hs hp => ?_, fun i rest hc h => ?_⟩
  · rw [commandLength_of_byteShift (isDataShift_iff.mpr ⟨h7, hdir⟩) hb, readField16, Nat.add_comm 1]
  · exact commandLength_of_bitShift (isDataShift_iff.mpr ⟨h7, hdir⟩) hb rest
  · exact commandLength_of_threeByte h rest
  · exact commandLength_of_oneByte h rest
  · have hshift : isDataShift op = false := Bool.eq_false_iff.mpr (mt isDataShift_iff.mp hs)
    exact commandLength_of_unlisted hshift (mt mem_plainOpcodes_iff.mp hp) rest
  · exact commandLength_encode hc h rest

end Sys2Proof
end

section
/-! PROOF. The clock selection is optimal (R90). A rate of a base is at most `f` exactly when its divisor is at least that
base's `clockDiv`, and a low-base rate is the high-base rate of five times its divisor, so what `clockPlan` picks is settled
by comparing divisors; `clockSelect` answers `E_CLOCK_TOO_LOW` only when there is no plan. -/

namespace Sys2Proof.Machine

/-! ### The rates of a base, by their divisors (R64, R89) -/

theorem ceilDiv_le_iff {a b d : Nat} (hb : 0 < b) : ceilDiv a b ≤ d ↔ a ≤ b * d := by
  rw [ceilDiv, ← Nat.ceilDiv_eq_add_pred_div, ceilDiv_le_iff_le_mul hb]

theorem clockActual_eq_div (p : Params) (low : Bool) (d : Nat) : clockActual p low d = (clockBase p low : Rat) / d := by
  rw [clockActual, Rat.mkRat_eq_div, Int.cast_natCast]

/-- `clockDiv` is the least divisor whose rate is at most `f` (R89). -/
theorem clockActual_le_iff {p : Params} {low : Bool} {f : Rat} {d : Nat} (hf : 0 < f) (hd : 1 ≤ d) :
    clockActual p low d ≤ f ↔ clockDiv (clockBase p low) f ≤ d := by
  have hnum : 0 < f.num.toNat := Int.lt_toNat.mpr (Rat.num_pos.mpr hf)
  have hfrac : f = (f.num.toNat : Rat) / f.den := by
    rw [← Int.cast_natCast, Int.toNat_of_nonneg (Rat.num_nonneg.mpr hf.le), Rat.num_div_den]
  have hdpos : (0 : Rat) < d := by exact_mod_cast hd
  have hden : (0 : Rat) < f.den := by exact_mod_cast f.pos
  calc clockActual p low d ≤ f
      ↔ (clockBase p low : Rat) / d ≤ (f.num.toNat : Rat) / f.den := by rw [clockActual_eq_div, ← hfrac]
    _ ↔ clockBase p low * f.den ≤ f.num.toNat * d := by rw [div_le_div_iff₀ hdpos hden]; norm_cast
    _ ↔ clockDiv (clockBase p low) f ≤ d := (ceilDiv_le_iff hnum).symm

theorem clockActual_antitone {p : Params} {low : Bool} {d e : Nat} (hd : 1 ≤ d) (h : d ≤ e) :
    clockActual p low e ≤ clockActual p low d := by
  rw [clockActual_eq_div, clockActual_eq_div]
  gcongr

/-- The high base is exactly five times the low one (R8), so a low-base rate is a high-base rate at five times the divisor. -/
theorem clockActual_low {p : Params} (h5 : baseDiv ∣ p.fBaseHi) (d : Nat) :
    clockActual p true d = clockActual p false (baseDiv * d) := by
  obtain ⟨b, hb⟩ := h5
  have hlow : clockBase p true = b := by simp [clockBase, hb]
  have hhigh : clockBase p false = baseDiv * b := by simp [clockBase, hb]
  rw [clockActual_eq_div, clockActual_eq_div, hlow, hhigh, Nat.cast_mul, Nat.cast_mul, mul_div_mul_left _ _ (by norm_num)]

theorem clockBase_pos {p : Params} (h5 : baseDiv ∣ p.fBaseHi) (hb : 1 ≤ p.fBaseHi) (low : Bool) : 0 < clockBase p low := by
  cases low with
  | false => exact hb
  | true => exact Nat.div_pos (Nat.le_of_dvd hb h5) (by decide)

theorem clockActual_pos {p : Params} {low : Bool} {d : Nat} (hb : 0 < clockBase p low) (hd : 1 ≤ d) :
    0 < clockActual p low d := by
  rw [clockActual_eq_div]
  exact div_pos (by exact_mod_cast hb) (by exact_mod_cast hd)

theorem one_le_clockDiv {base : Nat} {f : Rat} (hb : 0 < base) (hf : 0 < f) : 1 ≤ clockDiv base f := by
  have hnum : 0 < f.num.toNat := Int.lt_toNat.mpr (Rat.num_pos.mpr hf)
  refine Nat.pos_of_ne_zero fun h => ?_
  have hzero : base * f.den ≤ f.num.toNat * 0 := (ceilDiv_le_iff hnum).mp h.le
  exact absurd (Nat.mul_pos hb f.pos) (by omega)

/-! ### What the plan picks (R89) -/

/-- A plan's divisor is in range and the least of its base, and the low base is planned only where the high one cannot be. -/
theorem clockPlan_some {p : Params} {f : Rat} {low : Bool} {d : Nat} (h : clockPlan p f = some (low, d)) :
    0 < f ∧ d = clockDiv (clockBase p low) f ∧ d ≤ divMax ∧ (low = true → divMax < clockDiv (clockBase p false) f) := by
  unfold clockPlan at h
  split_ifs at h with hf hhigh hlow
  · cases h
    exact ⟨not_le.mp hf, rfl, hhigh, nofun⟩
  · cases h
    exact ⟨not_le.mp hf, rfl, hlow, fun _ => not_le.mp hhigh⟩

theorem clockPlan_eq_none_iff {p : Params} {f : Rat} :
    clockPlan p f = none ↔ 0 < f → ∀ low, divMax < clockDiv (clockBase p low) f := by
  rw [Bool.forall_bool]
  unfold clockPlan
  split_ifs with hf hhigh hlow
  · exact iff_of_true rfl fun hpos => absurd hf (not_le.mpr hpos)
  · exact iff_of_false nofun fun h => absurd hhigh (not_le.mpr (h (not_le.mp hf)).1)
  · exact iff_of_false nofun fun h => absurd hlow (not_le.mpr (h (not_le.mp hf)).2)
  · exact iff_of_true rfl fun _ => ⟨not_le.mp hhigh, not_le.mp hlow⟩

/-- There is no plan exactly when every rate is above the request. -/
theorem clockPlan_eq_none_iff_lt {p : Params} {f : Rat} (h5 : baseDiv ∣ p.fBaseHi) (hb : 1 ≤ p.fBaseHi) :
    clockPlan p f = none ↔ ∀ low d, 1 ≤ d → d ≤ divMax → f < clockActual p low d := by
  rw [clockPlan_eq_none_iff]
  constructor
  · intro h low d hd hmax
    by_cases hf : 0 < f
    · refine not_le.mp fun hle => ?_
      exact absurd ((clockActual_le_iff hf hd).mp hle) (not_le.mpr (hmax.trans_lt (h hf low)))
    · exact (not_lt.mp hf).trans_lt (clockActual_pos (clockBase_pos h5 hb low) hd)
  · intro h hf low
    refine not_le.mp fun hmax => ?_
    have hpos := one_le_clockDiv (clockBase_pos h5 hb low) hf
    exact absurd ((clockActual_le_iff hf hpos).mpr le_rfl) (not_le.mpr (h low _ hpos hmax))

/-- No rate that is at most the request is above the planned one: on the plan's own base its divisor is the least; a low-base
rate beside a high-base plan is itself a high-base rate; and beside a low-base plan no high-base rate is low enough (R90). -/
theorem clockPlan_optimal {p : Params} {f : Rat} {low low' : Bool} {d d' : Nat} (h5 : baseDiv ∣ p.fBaseHi)
    (hb : 1 ≤ p.fBaseHi) (h : clockPlan p f = some (low, d)) (hd' : 1 ≤ d') (hmax' : d' ≤ divMax)
    (hle : clockActual p low' d' ≤ f) : clockActual p low' d' ≤ clockActual p low d := by
  obtain ⟨hf, rfl, hmax, hhigh⟩ := clockPlan_some h
  have hpos := one_le_clockDiv (clockBase_pos h5 hb low) hf
  have same_base {e : Nat} (he : 1 ≤ e) (hle : clockActual p low e ≤ f) :
      clockActual p low e ≤ clockActual p low (clockDiv (clockBase p low) f) :=
    clockActual_antitone hpos ((clockActual_le_iff hf he).mp hle)
  match low, low' with
  | false, false | true, true => exact same_base hd' hle
  | false, true =>
    rw [clockActual_low h5] at hle ⊢
    exact same_base (Nat.mul_pos (by decide) hd') hle
  | true, false =>
    have hdiv := (clockActual_le_iff hf hd').mp hle
    exact absurd (hdiv.trans hmax') (not_le.mpr (hhigh rfl))

/-! ### What the clock selection answers -/

/-- A write of commands fails only with the transport's write error (R84). -/
theorem emitCmds_err {cs : List Instr} {s t : State} {e : Err} (h : emitCmds cs s = .err e t) :
    ∃ n, e = .transport (.write n) := by
  unfold emitCmds emitSamples at h
  split at h <;> split at h <;> cases h <;> exact ⟨_, rfl⟩

/-- A selection that succeeds returns the rate of its plan. -/
theorem clockSelect_ok {f a : Rat} {s t : State} (h : clockSelect f s = .ok a t) :
    ∃ low d, clockPlan s.cfg f = some (low, d) ∧ a = clockActual s.cfg low d := by
  unfold clockSelect at h
  split at h
  next => cases h
  next low d hplan =>
    split at h
    next u hx =>
      cases h
      have hcfg : u.cfg = s.cfg := ((emitCmds_io (clockSeq low d) s).ok hx).cfg
      exact ⟨low, d, hplan, by rw [hcfg]⟩
    next => cases h

theorem clockSelect_clockTooLow_iff {f : Rat} {s : State} :
    (∃ t, clockSelect f s = .err .clockTooLow t) ↔ clockPlan s.cfg f = none := by
  constructor
  · rintro ⟨t, h⟩
    unfold clockSelect at h
    split at h
    next hplan => exact hplan
    next low d _ =>
      split at h
      next => cases h
      next e u hx =>
        obtain ⟨n, rfl⟩ := emitCmds_err hx
        cases h
  · intro hplan
    exact ⟨s, by simp only [clockSelect, hplan]⟩

/-- Settles O26: what a plan's divisor says of its rate, and that there is no plan exactly when no rate is low enough. -/
theorem clockIsOptimal : Obligations.ClockIsOptimal := by
  refine fun s f h5 hb => ⟨fun a t h => ?_, clockSelect_clockTooLow_iff.trans (clockPlan_eq_none_iff_lt h5 hb)⟩
  obtain ⟨low, d, hplan, rfl⟩ := clockSelect_ok h
  obtain ⟨hf, hd, hmax, -⟩ := clockPlan_some hplan
  have hpos : 1 ≤ d := hd ▸ one_le_clockDiv (clockBase_pos h5 hb low) hf
  exact ⟨(clockActual_le_iff hf hpos).mpr hd.ge, ⟨low, d, hpos, hmax, rfl⟩,
    fun low' d' hd' hmax' hle => clockPlan_optimal h5 hb hplan hd' hmax' hle⟩

end Sys2Proof.Machine
end

section
/-! PROOF. The mode word (R51, R102). Past the half-duplex bit a word is accepted exactly when it is below 32, where the five
bits R51 names are all there is of it; so its fields give it back. -/

namespace Sys2Proof.Machine

/-- The three flag bits are worth at most 28, so a bit above 4 is left in `rest`; below 32 only the two low bits are. -/
theorem three_lt_modeRest_iff {mode : Nat} : 3 < modeRest mode ↔ 32 ≤ mode := by
  constructor
  · have hlow : ∀ m < 32, modeRest m ≤ 3 := by decide
    exact fun h => not_lt.mp fun hlt => absurd (hlow mode hlt) (not_le.mpr h)
  · have hflags : mode &&& modeFlags ≤ 28 := Nat.and_le_right
    unfold modeRest
    omega

theorem decomposeMode_halfDuplex {mode : Nat} (hhalf : mode.testBit modeHalf = true) :
    decomposeMode mode = .error .halfDuplex := if_pos hhalf

theorem decomposeMode_modeUnknown {mode : Nat} (hhalf : mode.testBit modeHalf = false) (h : 32 ≤ mode) :
    decomposeMode mode = .error .modeUnknown := by
  rw [decomposeMode, if_neg (Bool.eq_false_iff.mp hhalf), if_pos (three_lt_modeRest_iff.mpr h)]

/-- The 16 accepted words, each given back by its fields (R102). -/
theorem decomposeMode_ok {mode : Nat} (hhalf : mode.testBit modeHalf = false) (h : mode < 32) :
    ∃ m, decomposeMode mode = .ok m ∧ composeMode m = mode := by
  have hfields : ∀ m < 32, m.testBit modeHalf = false →
      composeMode ⟨(modeRest m).testBit modeCpha, (modeRest m).testBit modeCpol, m.testBit modeNoCs, m.testBit modeLsb⟩
        = m := by decide
  refine ⟨_, ?_, hfields mode h hhalf⟩
  rw [decomposeMode, if_neg (Bool.eq_false_iff.mp hhalf), if_neg (mt three_lt_modeRest_iff.mp (not_le.mpr h))]

/-- Settles O27: one equation of `decomposeMode` for each way R51 takes a mode word. -/
theorem modeRoundTrip : Obligations.ModeRoundTrip := by
  intro mode
  cases hhalf : mode.testBit modeHalf with
  | true =>
    rw [decomposeMode_halfDuplex hhalf]
    exact .inl ⟨rfl, rfl⟩
  | false =>
    rcases le_or_gt 32 mode with hhigh | hlow
    · rw [decomposeMode_modeUnknown hhalf hhigh]
      exact .inr ⟨rfl, rfl, hhigh⟩
    · obtain ⟨m, hm, hcompose⟩ := decomposeMode_ok hhalf hlow
      rw [hm]
      exact ⟨hcompose, rfl, hlow⟩

end Sys2Proof.Machine
end

section
/-! PROOF. `SPI_CLOSE` (R113): what its body answers with and without a connection, ended as a request on an open device. -/

namespace Sys2Proof.Machine

/-- On an open device a request is its body, ended (R15). -/
theorem request_open {g : GroupId} {s : State} (ho : s.ste.dev = .opened) (body : State → Res Reply) :
    request g body s = .next (finish g (body s)) := by
  rw [request, whenOpen, if_pos ho]

/-- An error that is not the transport's, raised before any event, leaves nothing but its result (R143, R144). -/
theorem State.raise_eq_ran {s : State} {g : GroupId} {e : Err} (he : e.isTransport = false) :
    s.raise g e = s.ran [] s.ste s.bridge s.bufs (.failed e) := by
  rw [State.raise, if_neg (Bool.eq_false_iff.mp he), ← State.went_addResult, State.went_nil]

/-- A change of `S` alone, ended with a result, is a run without events. -/
theorem State.withSte_addResult (s : State) (f : Ste → Ste) (r : Result) :
    (s.withSte f).addResult r = s.ran [] (f s.ste) s.bridge s.bufs r := by
  rw [← State.went_addResult, ← State.went_withSte, State.went_nil]

theorem spiClose_of_connected {s : State} (h : s.ste.spi ≠ none) :
    spiClose s = .ok .unit (s.withSte fun t => { t with spi := none, usingSpi := false }) := by
  obtain ⟨c, hc⟩ := Option.ne_none_iff_exists'.mp h
  simp only [spiClose, hc]

theorem spiClose_of_not_connected {s : State} (h : s.ste.spi = none) : spiClose s = .err .notConnected s := by
  simp only [spiClose, h]

/-- Settles O37: the two answers of the body, each ended with its one result. -/
theorem spiCloseReleases : Obligations.SpiCloseReleases := by
  intro s ho
  have hexec : exec .spiClose s = .next (finish .d (spiClose s)) := request_open ho spiClose
  refine ⟨fun hspi => ?_, fun hspi => ?_⟩
  · rw [hexec, spiClose_of_connected hspi, finish_ok, State.withSte_addResult]
  · rw [hexec, spiClose_of_not_connected hspi, finish_err, State.raise_eq_ran rfl]

end Sys2Proof.Machine
end

section
/-! PROOF. The decimation inverts the expansion (R118). The frame is blocks of one length, so a sample's place in it tells the
byte and the bit it carries; decimation sets a byte's bit to the MISO bit of the sample that carries it; and the loop-back
hands that sample's MOSI bit over, one lag later. -/

namespace Sys2Proof.Machine

/-! ### Places within a byte (R35, R36) -/

/-- The place in a byte of the bit shifted at position `k` (R35). -/
def bitPlace (lsbFirst : Bool) (k : Nat) : Nat := if lsbFirst then k else 7 - k

theorem bitPlace_lt (lsbFirst : Bool) {k : Nat} (hk : k < 8) : bitPlace lsbFirst k < 8 := by
  cases lsbFirst
  · exact Nat.sub_lt_succ 7 k
  · exact hk

theorem bitPlace_bitPlace (lsbFirst : Bool) {k : Nat} (hk : k < 8) : bitPlace lsbFirst (bitPlace lsbFirst k) = k := by
  cases lsbFirst
  · exact Nat.sub_sub_self (Nat.le_of_lt_succ hk)
  · rfl

theorem exists_bitPlace (lsbFirst : Bool) {i : Nat} (hi : i < 8) : ∃ k < 8, bitPlace lsbFirst k = i :=
  ⟨bitPlace lsbFirst i, bitPlace_lt lsbFirst hi, bitPlace_bitPlace lsbFirst hi⟩

theorem bitPlace_inj (lsbFirst : Bool) {k l : Nat} (hk : k < 8) (hl : l < 8)
    (h : bitPlace lsbFirst k = bitPlace lsbFirst l) : k = l := by
  rw [← bitPlace_bitPlace lsbFirst hk, h, bitPlace_bitPlace lsbFirst hl]

theorem shiftOrder_length (lsbFirst : Bool) (b : Byte) : (shiftOrder lsbFirst b).length = 8 := by
  rw [shiftOrder, List.length_map, List.length_range]

theorem shiftOrder_getElem? (lsbFirst : Bool) (b : Byte) {k : Nat} (hk : k < 8) :
    (shiftOrder lsbFirst b)[k]? = some (b.getLsbD (bitPlace lsbFirst k)) := by
  rw [shiftOrder, List.getElem?_map, List.getElem?_range hk]
  rfl

/-! ### Lists of blocks of one length -/

theorem length_flatMap_of_blocks {α β : Type} {f : α → List β} {m : Nat} (hf : ∀ x, (f x).length = m) (l : List α) :
    (l.flatMap f).length = m * l.length := by
  simp only [List.length_flatMap, hf, List.map_const', List.sum_replicate_nat, Nat.mul_comm]

/-- Place `r` of block `i` is at `m * i + r`. -/
theorem getElem?_flatMap_of_blocks {α β : Type} {f : α → List β} {m r : Nat} (hf : ∀ x, (f x).length = m) (hr : r < m)
    (l : List α) (i : Nat) : (l.flatMap f)[m * i + r]? = l[i]?.bind fun x => (f x)[r]? := by
  induction l generalizing i with
  | nil => rfl
  | cons x l ih =>
    rw [List.flatMap_cons]
    cases i with
    | zero => rw [Nat.mul_zero, Nat.zero_add, List.getElem?_append_left (hr.trans_eq (hf x).symm)]; rfl
    | succ i =>
      have hpast : m * (i + 1) + r - (f x).length = m * i + r := by rw [hf x, Nat.mul_succ]; omega
      rw [List.getElem?_append_right (by rw [hf x, Nat.mul_succ]; omega), hpast, ih]
      rfl

/-! ### The sample that carries a bit (R116) -/

theorem pinIf_getLsbD (on : Bool) (pin : Byte) (i : Nat) : (pinIf on pin).getLsbD i = (on && pin.getLsbD i) := by
  cases on
  · exact BitVec.getLsbD_zero
  · rfl

theorem bbSmp_mosi (a : Byte) (clock bit : Bool) : (bbSmp a clock bit).getLsbD 1 = bit := by
  have hsck : pinSck.getLsbD 1 = false := by decide
  have hmosi : pinMosi.getLsbD 1 = true := by decide
  simp only [bbSmp, BitVec.getLsbD_or, BitVec.getLsbD_and, BitVec.getLsbD_not, pinIf_getLsbD, hsck, hmosi]
  simp

theorem bbPair_length (c : SpiConn) (a : Byte) (bit : Bool) : (bbPair c a bit).length = 2 := by
  unfold bbPair
  split <;> rfl

/-- The second sample of a pair, at the level of the bit's second half. -/
theorem bbPair_second (c : SpiConn) (a : Byte) (bit : Bool) :
    (bbPair c a bit)[1]? = some (bbSmp a (if c.cpha then c.cpol else !c.cpol) bit) := by
  unfold bbPair
  split <;> rfl

theorem bbByte_length (c : SpiConn) (a b : Byte) : ((shiftOrder c.lsbf b).flatMap (bbPair c a)).length = 16 := by
  rw [length_flatMap_of_blocks (bbPair_length c a), shiftOrder_length]

/-- The samples of the data bytes: a frame without the two that open and the two that close it. -/
def bbBody (c : SpiConn) (g : Group) (p : Packet) : List Byte :=
  (bbData p).flatMap fun b => (shiftOrder c.lsbf b).flatMap (bbPair c (spiAssert c g))

theorem bbFrameOf_eq (c : SpiConn) (g : Group) (p : Packet) :
    bbFrameOf c g p = [spiIdle c g, spiAssert c g] ++ (bbBody c g p ++ [spiAssert c g, spiIdle c g]) :=
  List.append_assoc ..

theorem bbBody_length (c : SpiConn) (g : Group) (p : Packet) : (bbBody c g p).length = 16 * (bbData p).length :=
  length_flatMap_of_blocks (bbByte_length c _) _

theorem bbFrameOf_length (c : SpiConn) (g : Group) (p : Packet) :
    (bbFrameOf c g p).length = 16 * (bbData p).length + 4 := by
  simp only [bbFrameOf_eq, List.length_append, bbBody_length, List.length_cons, List.length_nil]
  omega

/-- The second of the two samples of bit `k` of byte `j`. -/
theorem bbBody_getElem? (c : SpiConn) (g : Group) (p : Packet) {j k : Nat} (hj : j < (bbData p).length) (hk : k < 8) :
    (bbBody c g p)[16 * j + (2 * k + 1)]? = some (bbSmp (spiAssert c g) (if c.cpha then c.cpol else !c.cpol)
      ((bbData p)[j].getLsbD (bitPlace c.lsbf k))) := by
  rw [bbBody, getElem?_flatMap_of_blocks (bbByte_length c _) (by omega), List.getElem?_eq_getElem hj, Option.bind_some,
    getElem?_flatMap_of_blocks (bbPair_length c _) (by omega), shiftOrder_getElem? _ _ hk, Option.bind_some,
    bbPair_second]

theorem bbData_of_write {p : Packet} (hw : p.w ≠ []) : bbData p = p.w :=
  if_pos (decide_eq_true (List.length_pos_iff.mpr hw))

/-- The sample that decimation reads for bit `k` of byte `j`, without lag, carries that bit on MOSI (R117). -/
theorem bbFrameOf_mosi (c : SpiConn) (g : Group) (p : Packet) {j k : Nat} (hj : j < (bbData p).length) (hk : k < 8) :
    ((bbFrameOf c g p).getD (bbIndex 0 j k) 0).getLsbD 1 = (bbData p)[j].getLsbD (bitPlace c.lsbf k) := by
  have hindex : bbIndex 0 j k = 16 * j + (2 * k + 1) + 2 := by simp only [bbIndex, bbPre]; omega
  have hin : 16 * j + (2 * k + 1) < (bbBody c g p).length := by rw [bbBody_length]; omega
  have hframe : (bbFrameOf c g p)[bbIndex 0 j k]? = (bbBody c g p)[16 * j + (2 * k + 1)]? := by
    rw [hindex, bbFrameOf_eq]
    exact List.getElem?_append_left hin
  rw [List.getD_eq_getElem?_getD, hframe, bbBody_getElem? c g p hj hk]
  exact bbSmp_mosi ..

/-! ### The bits of a decimated byte (R117) -/

theorem and_pinMiso_ne_zero_iff (x : Byte) : x &&& pinMiso ≠ 0 ↔ x.getLsbD 2 = true := by
  have hpin : pinMiso = BitVec.twoPow 8 2 := by decide
  have hset : BitVec.twoPow 8 2 ≠ 0#8 := by decide
  rw [hpin, BitVec.and_twoPow]
  cases x.getLsbD 2 <;> simp [hset]

theorem getLsbD_one_shiftLeft (m : Nat) {i : Nat} (hi : i < 8) :
    (BitVec.ofNat 8 (1 <<< m)).getLsbD i = decide (m = i) := by
  rw [BitVec.getLsbD_ofNat, Nat.one_shiftLeft, Nat.testBit_two_pow, decide_eq_true hi, Bool.true_and]

/-- Setting the bits at the places `f k` for the `k` with `q k`, one after the other, sets just these. -/
theorem getLsbD_foldl_or {q : Nat → Prop} [DecidablePred q] (f : Nat → Nat) (ks : List Nat) (x : Byte) {i : Nat}
    (hi : i < 8) :
    (ks.foldl (fun (y : Byte) k => y ||| ((if q k then 1 else 0) <<< f k)) x).getLsbD i = true
      ↔ x.getLsbD i = true ∨ ∃ k ∈ ks, q k ∧ f k = i := by
  induction ks generalizing x with
  | nil => simp
  | cons k ks ih =>
    rw [List.foldl_cons, ih, BitVec.getLsbD_or]
    by_cases hq : q k
    · simp [hq, getLsbD_one_shiftLeft _ hi, or_assoc]
    · simp [hq]

/-- Bit `k` in shift order of a decimated byte is the MISO bit of the sample that carries it. -/
theorem bbDecim_getLsbD (c : SpiConn) (lag : Nat) (resp : List Byte) (j : Nat) {k : Nat} (hk : k < 8) :
    (bbDecim c lag resp j).getLsbD (bitPlace c.lsbf k) = (resp.getD (bbIndex lag j k) 0).getLsbD 2 := by
  rw [Bool.eq_iff_iff, ← and_pinMiso_ne_zero_iff]
  refine (getLsbD_foldl_or (q := fun k => resp.getD (bbIndex lag j k) 0 &&& pinMiso ≠ 0) (bitPlace c.lsbf)
    (List.range 8) 0 (bitPlace_lt c.lsbf hk)).trans ⟨?_, fun h => ?_⟩
  · rintro (h0 | ⟨l, hl, hmiso, hplace⟩)
    · exact absurd h0 (Bool.eq_false_iff.mp BitVec.getLsbD_zero)
    · rwa [← bitPlace_inj c.lsbf (List.mem_range.mp hl) hk hplace]
  · exact .inr ⟨k, List.mem_range.mpr hk, h, rfl⟩

/-! ### The round trip (R118) -/

/-- A loop-back of lag `lag`: from the lag on, a sample's MISO bit is the frame's MOSI bit `lag` samples earlier (R118). -/
def LoopsBack (lag : Nat) (fr resp : List Byte) : Prop :=
  ∀ i, lag ≤ i → i < resp.length → (resp.getD i 0).getLsbD 2 = (fr.getD (i - lag) 0).getLsbD 1

/-- Every byte the burst carries is decimated from its loop-back. -/
theorem bbDecim_loopBack {c : SpiConn} {g : Group} {p : Packet} {lag : Nat} {resp : List Byte} (hlag : lag ≤ 1)
    (hlen : resp.length = (bbFrameOf c g p).length) (hloop : LoopsBack lag (bbFrameOf c g p) resp) {j : Nat}
    (hj : j < (bbData p).length) : bbDecim c lag resp j = (bbData p)[j] := by
  refine BitVec.eq_of_getLsbD_eq fun i hi => ?_
  obtain ⟨k, hk, rfl⟩ := exists_bitPlace c.lsbf hi
  have hindex : bbIndex lag j k < resp.length := by
    rw [hlen, bbFrameOf_length]; simp only [bbIndex, bbPre]; omega
  calc (bbDecim c lag resp j).getLsbD (bitPlace c.lsbf k)
      = (resp.getD (bbIndex lag j k) 0).getLsbD 2 := bbDecim_getLsbD c lag resp j hk
    _ = ((bbFrameOf c g p).getD (bbIndex lag j k - lag) 0).getLsbD 1 := hloop _ (Nat.le_add_left ..) hindex
    _ = ((bbFrameOf c g p).getD (bbIndex 0 j k) 0).getLsbD 1 := by rw [bbIndex, Nat.add_sub_cancel]; rfl
    _ = (bbData p)[j].getLsbD (bitPlace c.lsbf k) := bbFrameOf_mosi c g p hj hk

/-- Settles O36: the burst carries the write buffer, and each of its bytes comes back. -/
theorem bbExactInverse : Obligations.BbExactInverse := by
  intro c g p lag resp hw _ hlag hlen hloop
  have hdata : bbData p = p.w := bbData_of_write hw
  rw [← hdata]
  refine List.ext_getElem (by rw [List.length_map, List.length_range]) fun j _ hj => ?_
  rw [List.getElem_map, List.getElem_range]
  exact bbDecim_loopBack hlag hlen hloop hj

end Sys2Proof.Machine
end

section
/-! PROOF. `DEV_CLOSE` (R136): what its body answers on an open or failed device and on a closed one, ended as the request
it is. It is not guarded by R15's check, so that a failed device can be closed. -/

namespace Sys2Proof.Machine

theorem devClose_of_not_closed {s : State} (h : s.ste.dev ≠ .closed) :
    devClose s = .ok .unit (s.withSte fun _ => Ste.reset) := by
  rw [devClose, if_neg h]

theorem devClose_of_closed {s : State} (h : s.ste.dev = .closed) : devClose s = .err .notOpen s := by
  rw [devClose, if_pos h]

/-- Settles O24: a device that is not closed is left at `Ste.reset`, whose fields R27 gives; a closed one gets the error. -/
theorem closeResets : Obligations.CloseResets := by
  intro s
  have hexec : exec .devClose s = .next (finish .d (devClose s)) := rfl
  refine ⟨fun hdev => ⟨Ste.reset, ?_, rfl, rfl, rfl, rfl, rfl, rfl, rfl, rfl, rfl⟩, fun hdev => ?_⟩
  · rw [hexec, devClose_of_not_closed hdev, finish_ok, State.withSte_addResult]
  · rw [hexec, devClose_of_closed hdev, finish_err, State.raise_eq_ran rfl]

end Sys2Proof.Machine
end

section
/-! PROOF. An error raised before I/O leaves no trace (R143, R145). Two predicates say where an operation raises such an
error, a protocol violation: `Res.NoViolation` (nowhere: what does I/O answers with a transport error, a NAK or a failed
verification) and `Res.ViolatesOnlyAt s` (only at `s`, where the request began). A request is checks followed by I/O, so its
body is in the second, and what remains is how the request is ended. -/

namespace Sys2Proof.Machine

/-! ### Where a protocol violation may be raised -/

/-- An operation that raises no protocol violation. -/
def Res.NoViolation {α : Type} : Res α → Prop
  | .ok _ _ => True
  | .err e _ => e.class ≠ .protocolViolation

/-- An operation that raises a protocol violation, if any, in the state `s`. -/
def Res.ViolatesOnlyAt {α : Type} (s : State) : Res α → Prop
  | .ok _ _ => True
  | .err e t => e.class = .protocolViolation → t = s

theorem Res.NoViolation.ok {α : Type} (a : α) (s : State) : (Res.ok a s).NoViolation := trivial

theorem Res.NoViolation.onlyAt {α : Type} {x : Res α} (h : x.NoViolation) (s : State) : x.ViolatesOnlyAt s := by
  cases x with
  | ok a t => trivial
  | err e t => exact fun he => absurd he h

theorem Res.ViolatesOnlyAt.err {α : Type} (e : Err) (s : State) : (Res.err e s : Res α).ViolatesOnlyAt s := fun _ => rfl

theorem Res.NoViolation.bind {α β : Type} {x : Res α} {f : α → State → Res β} (hx : x.NoViolation)
    (hf : ∀ a t, (f a t).NoViolation) : (x.bind f).NoViolation := by
  cases x with
  | ok a t => exact hf a t
  | err e t => exact hx

/-- Checks, and then on success I/O. -/
theorem Res.ViolatesOnlyAt.bind {α β : Type} {s : State} {x : Res α} {f : α → State → Res β} (hx : x.ViolatesOnlyAt s)
    (hf : ∀ a t, (f a t).NoViolation) : (x.bind f).ViolatesOnlyAt s := by
  cases x with
  | ok a t => exact (hf a t).onlyAt s
  | err e t => exact hx

theorem Res.NoViolation.reply {α : Type} {x : Res α} (h : x.NoViolation) (f : α → State → Reply) :
    (x.reply f).NoViolation := .bind h fun _ _ => .ok _ _

theorem Res.ViolatesOnlyAt.reply {α : Type} {s : State} {x : Res α} (h : x.ViolatesOnlyAt s) (f : α → State → Reply) :
    (x.reply f).ViolatesOnlyAt s := .bind h fun _ _ => .ok _ _

theorem Res.ignore_noViolation {α : Type} (x : Res α) : x.ignore.NoViolation := by cases x <;> trivial

theorem Res.NoViolation.orFailed {α : Type} {x : Res α} (h : x.NoViolation) : x.orFailed.NoViolation := by
  cases x <;> exact h

/-! ### The logical events (R84) -/

theorem emitSamples_noViolation (bs : List Byte) (s : State) : (emitSamples bs s).NoViolation := by
  unfold emitSamples
  split
  · trivial
  · exact nofun

theorem emitCmds_noViolation (cs : List Instr) (s : State) : (emitCmds cs s).NoViolation := by
  cases h : emitCmds cs s with
  | ok a t => trivial
  | err e t =>
    obtain ⟨n, rfl⟩ := emitCmds_err h
    exact nofun

theorem rd_noViolation (n : Nat) (s : State) : (rd n s).NoViolation := by
  unfold rd
  split
  · trivial
  · exact nofun
  · exact nofun

theorem flush_noViolation (s : State) : (flush s).NoViolation := by
  unfold flush
  dsimp only
  split
  · trivial
  · exact nofun

theorem ctrl_noViolation (q : CtrlReq) (s : State) : (ctrl q s).NoViolation := by
  unfold ctrl
  dsimp only
  split
  · trivial
  · exact nofun

/-! ### The serial engine -/

/-- The one error of a clock selection that is not its write's is raised before the write (R89). -/
theorem clockSelect_violatesOnlyAt (f : Rat) (s : State) : (clockSelect f s).ViolatesOnlyAt s := by
  unfold clockSelect
  split
  · exact .err _ s
  next low d _ =>
    have hw := emitCmds_noViolation (clockSeq low d) s
    split
    next => trivial
    next e t hx =>
      rw [hx] at hw
      exact fun he => absurd he hw

theorem bbDirection_noViolation (dir : Byte) (s : State) : (bbDirection dir s).NoViolation := by
  unfold bbDirection
  split
  · exact ctrl_noViolation _ s
  · trivial

theorem bbGroupSet_noViolation (val dir : Byte) (s : State) : (bbGroupSet val dir s).NoViolation :=
  .bind (bbDirection_noViolation dir s) fun _ t =>
  .bind (emitSamples_noViolation _ t) fun _ t =>
  .bind (rd_noViolation 1 t) fun _ _ => .ok _ _

theorem groupSet_noViolation (g : GroupId) (val dir : Byte) (s : State) : (groupSet g val dir s).NoViolation := by
  unfold groupSet
  split
  · cases g <;> exact emitCmds_noViolation _ s
  · exact bbGroupSet_noViolation val dir s

theorem groupRead_noViolation (g : GroupId) (s : State) : (groupRead g s).NoViolation := by
  refine .bind ?_ fun _ t => .bind (rd_noViolation 1 t) fun _ _ => .ok _ _
  split
  · cases g <;> exact emitCmds_noViolation _ s
  · exact emitSamples_noViolation _ s

/-! ### Opening and closing the device -/

theorem verifyProbe_noViolation (i : Instr) (x : Byte) (s : State) : (verifyProbe i x s).NoViolation :=
  .bind (emitCmds_noViolation _ s) fun _ t =>
  .bind (rd_noViolation 2 t) fun _ t => by
    split
    · trivial
    · exact nofun

theorem verifyMode_noViolation (s : State) : (verifyMode s).NoViolation :=
  .bind (verifyProbe_noViolation _ _ s) fun _ t =>
  .bind (verifyProbe_noViolation _ _ t) fun _ _ => .ok _ _

theorem fastPath_noViolation (s : State) : (fastPath s).NoViolation :=
  .bind (ctrl_noViolation _ s) fun _ t =>
  .bind (ctrl_noViolation _ t) fun _ t =>
  .bind (ctrl_noViolation _ t) fun _ t =>
  .bind (flush_noViolation t) fun _ t => verifyMode_noViolation t

theorem attempt_noViolation (first : Bool) (s : State) : (attempt first s).NoViolation := by
  cases first with
  | true => exact fastPath_noViolation s
  | false =>
    have hreset : (resetAttempt s).NoViolation := .bind (ctrl_noViolation _ s) fun _ t => (flush t).ignore_noViolation
    exact .bind hreset fun _ t => fastPath_noViolation t

theorem openFinal_noViolation (s : State) : (openFinal s).NoViolation :=
  .bind (emitCmds_noViolation _ s) fun _ _ => .ok _ _

theorem openCmd_noViolation (s : State) : (openCmd s).NoViolation := by
  unfold openCmd
  split
  next t _ => exact (openFinal_noViolation t).orFailed
  next e t _ => exact Res.NoViolation.orFailed (.bind (attempt_noViolation false t) fun _ t => openFinal_noViolation t)

theorem openBb_noViolation (s : State) : (openBb s).NoViolation := by
  refine Res.NoViolation.orFailed ?_
  exact .bind (ctrl_noViolation _ s) fun _ t =>
    .bind (ctrl_noViolation _ t) fun _ t =>
    .bind (ctrl_noViolation _ t) fun _ t =>
    .bind (flush t).ignore_noViolation fun _ _ => .ok _ _

theorem devOpen_violatesOnlyAt (s : State) : (devOpen s).ViolatesOnlyAt s := by
  unfold devOpen
  split
  · exact .err _ s
  · split
    · exact (openCmd_noViolation s).onlyAt s
    · exact (openBb_noViolation s).onlyAt s

theorem devClose_violatesOnlyAt (s : State) : (devClose s).ViolatesOnlyAt s := by
  unfold devClose
  split
  · exact .err _ s
  · trivial

/-! ### GPIO requests -/

theorem onPin_violatesOnlyAt {g : GroupId} {i : Fin 8} {body : State → Res Reply} {s : State} (h : (body s).NoViolation) :
    (onPin g i body s).ViolatesOnlyAt s := by
  unfold onPin
  split
  · exact .err _ s
  · exact h.onlyAt s

/-! ### I²C requests -/

/-- The two checks before the body of an I²C request on an open bus (R96). -/
theorem onCmd_violatesOnlyAt {body : State → Res Reply} {s : State} (h : (body s).ViolatesOnlyAt s) :
    (onCmd body s).ViolatesOnlyAt s := by
  unfold onCmd
  split
  · exact h
  · exact .err _ s

theorem withI2c_violatesOnlyAt {body : I2cBus → State → Res Reply} {s : State} (h : ∀ b, (body b s).ViolatesOnlyAt s) :
    (withI2c body s).ViolatesOnlyAt s := by
  unfold withI2c
  split
  · exact .err _ s
  · exact h _

theorem i2cOpen_violatesOnlyAt (pull : Pull) (s : State) : (i2cOpen pull s).ViolatesOnlyAt s := by
  unfold i2cOpen
  split
  · exact .err _ s
  · split
    · exact .err _ s
    · exact .bind (clockSelect_violatesOnlyAt _ s) fun _ t => .bind (emitCmds_noViolation _ t) fun _ _ => .ok _ _

theorem i2cSetSpeed_violatesOnlyAt (rate : Nat) (s : State) : (i2cSetSpeed rate s).ViolatesOnlyAt s :=
  .bind (clockSelect_violatesOnlyAt _ s) fun _ _ => .ok _ _

theorem i2cClose_noViolation (s : State) : (i2cClose s).NoViolation := .reply (emitCmds_noViolation _ _) _

/-- A NAK is of the bus-level class (R143). -/
theorem i2cWriteByte_noViolation (b : Byte) (s : State) : (i2cWriteByte b s).NoViolation :=
  .bind (emitCmds_noViolation _ s) fun _ t =>
  .bind (rd_noViolation 1 t) fun _ t => by
    split
    · exact .bind (emitCmds_noViolation _ t) fun _ _ => nofun
    · trivial

theorem i2cWriteBytes_noViolation (bs : List Byte) (s : State) : (i2cWriteBytes bs s).NoViolation := by
  induction bs generalizing s with
  | nil => trivial
  | cons b bs ih => exact .bind (i2cWriteByte_noViolation b s) fun _ t => ih t

theorem i2cReadBytes_noViolation (count j : Nat) (s : State) : (i2cReadBytes count j s).NoViolation := by
  induction count generalizing j s with
  | zero => trivial
  | succ count ih => exact .bind (emitCmds_noViolation _ s) fun _ t => .bind (rd_noViolation 1 t) fun _ _ => ih _ _

theorem i2cTx_violatesOnlyAt (addr : Nat) (w : List Byte) (len : Nat) (s : State) :
    (i2cTx addr w len s).ViolatesOnlyAt s := by
  unfold i2cTx
  split
  · exact .err _ s
  · refine Res.NoViolation.onlyAt ?_ s
    exact .bind (emitCmds_noViolation _ s) fun _ t =>
      .bind (i2cWriteBytes_noViolation _ t) fun _ t =>
      .bind (i2cReadBytes_noViolation _ _ t) fun _ t =>
      .bind (emitCmds_noViolation _ t) fun _ _ => .ok _ _

/-! ### SPI requests -/

theorem connectClock_violatesOnlyAt (c : SpiConn) (s : State) : (connectClock c s).ViolatesOnlyAt s := by
  unfold connectClock
  split
  · exact .bind (clockSelect_violatesOnlyAt _ s) fun _ _ => .ok _ _
  · trivial

theorem connectRate_noViolation (c : SpiConn) (s : State) : (connectRate c s).NoViolation := by
  unfold connectRate
  have hrate := ctrl_noViolation (.setRate (2 * c.freq)) s
  split
  · split
    next => trivial
    next e t hx =>
      rw [hx] at hrate
      exact hrate
  · trivial

theorem connectIo_violatesOnlyAt (c : SpiConn) (s : State) : (connectIo c s).ViolatesOnlyAt s := by
  unfold connectIo
  split
  · exact .bind (connectClock_violatesOnlyAt c s) fun _ t => emitCmds_noViolation _ t
  · exact .bind ((connectRate_noViolation c s).onlyAt s) fun _ t => bbGroupSet_noViolation _ _ t

theorem spiConnect_violatesOnlyAt (f mode bits : Nat) (s : State) : (spiConnect f mode bits s).ViolatesOnlyAt s := by
  unfold spiConnect
  split
  · exact .err _ s
  · exact .bind (connectIo_violatesOnlyAt _ s) fun _ _ => .ok _ _

theorem readChunk_noViolation (p : Packet) (j k : Nat) (s : State) : (readChunk p j k s).NoViolation := by
  unfold readChunk
  split
  · exact .bind (rd_noViolation _ s) fun _ _ => .ok _ _
  · trivial

theorem txChunks_noViolation (c : SpiConn) (p : Packet) (j count k : Nat) (s : State) :
    (txChunks c p j count k s).NoViolation := by
  induction count generalizing k s with
  | zero => trivial
  | succ count ih =>
    exact .bind (emitCmds_noViolation _ s) fun _ t => .bind (readChunk_noViolation p j _ t) fun _ t => ih _ t

theorem emitTrailer_noViolation (c : SpiConn) (s : State) : (emitTrailer c s).NoViolation := by
  unfold emitTrailer
  split
  · trivial
  · exact emitCmds_noViolation _ s

theorem txPacket_noViolation (c : SpiConn) (p : Packet) (j : Nat) (s : State) : (txPacket c p j s).NoViolation :=
  .bind (emitCmds_noViolation _ s) fun _ t =>
  .bind (txChunks_noViolation c p j _ 1 t) fun _ t =>
  .bind (readChunk_noViolation p j _ t) fun _ t => emitTrailer_noViolation c t

theorem bbPacket_noViolation (c : SpiConn) (p : Packet) (j : Nat) (s : State) : (bbPacket c p j s).NoViolation :=
  .bind (emitSamples_noViolation _ s) fun _ t => .bind (rd_noViolation _ t) fun _ _ => .ok _ _

theorem sendPacket_noViolation (c : SpiConn) (p : Packet) (j : Nat) (s : State) : (sendPacket c p j s).NoViolation := by
  unfold sendPacket
  split
  · exact txPacket_noViolation c p j s
  · exact bbPacket_noViolation c p j s

theorem sendPackets_noViolation (c : SpiConn) (j : Nat) (ps : List Packet) (s : State) :
    (sendPackets c j ps s).NoViolation := by
  induction ps generalizing j s with
  | nil => trivial
  | cons p ps ih => exact .bind (sendPacket_noViolation c p j s) fun _ t => ih _ t

/-- Every packet is validated before the first one is sent (R103, R115). -/
theorem spiTxPackets_violatesOnlyAt (pkts : List Packet) (s : State) : (spiTxPackets pkts s).ViolatesOnlyAt s := by
  unfold spiTxPackets
  split
  · exact .err _ s
  · split
    · exact .err _ s
    · exact (sendPackets_noViolation _ 0 pkts s).onlyAt s

theorem spiClose_violatesOnlyAt (s : State) : (spiClose s).ViolatesOnlyAt s := by
  unfold spiClose
  split
  · exact .err _ s
  · trivial

/-! ### The end of a request -/

/-- From `s` to `t` there was no event, and `S`, the bridge and the draws to come are as they were. -/
structure State.Untouched (s t : State) : Prop where
  trace : t.trace = s.trace
  ste : t.ste = s.ste
  bridge : t.bridge = s.bridge
  env : t.env = s.env

theorem State.Untouched.refl (s : State) : s.Untouched s := ⟨rfl, rfl, rfl, rfl⟩

theorem State.Untouched.addResult {s t : State} (h : s.Untouched t) (r : Result) : s.Untouched (t.addResult r) :=
  ⟨h.trace, h.ste, h.bridge, h.env⟩

theorem State.untouched_loadBufs (s : State) (rs : List (List Byte)) : s.Untouched (s.loadBufs rs) := ⟨rfl, rfl, rfl, rfl⟩

/-- A request from `s` to `t` whose one new result is a protocol violation has touched nothing (R145). -/
def State.ViolationLeavesUntouched (s t : State) : Prop :=
  ∀ e, t.results = s.results ++ [.failed e] → e.class = .protocolViolation → s.Untouched t

/-- The result a state was ended with is the one new result. -/
theorem State.addResult_inj {s t : State} {r r' : Result} (h : (t.addResult r).results = s.results ++ [r']) : r = r' :=
  List.singleton_inj.mp (List.append_inj_right' h rfl)

/-- A protocol violation strikes no pins: raising it appends its result (R147). -/
theorem State.raise_violation (s : State) (g : GroupId) {e : Err} (he : e.class = .protocolViolation) :
    s.raise g e = s.addResult (.failed e) := by
  rw [State.raise, if_neg (by simp [Err.isTransport, he])]

/-- `u` is `s` with the request's buffers loaded. -/
theorem finish_untouched {g : GroupId} {s u : State} {x : Res Reply} (hu : s.Untouched u) (hx : x.ViolatesOnlyAt u) :
    s.ViolationLeavesUntouched (finish g x) := by
  intro e hres he
  cases x with
  | ok v t => cases State.addResult_inj hres
  | err e' t =>
    cases State.addResult_inj hres
    rw [finish_err, State.raise_violation t g he, hx he]
    exact hu.addResult _

theorem finishOpen_untouched {s : State} {x : Res Unit} (hx : x.ViolatesOnlyAt s) :
    s.ViolationLeavesUntouched (finishOpen x) := by
  intro e hres he
  cases x with
  | ok v t => cases State.addResult_inj hres
  | err e' t =>
    cases State.addResult_inj hres
    obtain rfl : t = s := hx he
    exact (State.Untouched.refl t).addResult _

theorem request_untouched {g : GroupId} {body : State → Res Reply} {s u : State} (hu : s.Untouched u)
    (h : (body u).ViolatesOnlyAt u) : ∃ t, request g body u = .next t ∧ s.ViolationLeavesUntouched t := by
  have hopen : (whenOpen body u).ViolatesOnlyAt u := by
    unfold whenOpen
    split
    · exact h
    · exact .err _ u
  exact ⟨_, rfl, finish_untouched hu hopen⟩

/-! ### Every host request -/

theorem exec_request_untouched {i : Instr} (hi : i.isRequest = true) (s : State) :
    ∃ t, exec i s = .next t ∧ s.ViolationLeavesUntouched t := by
  cases i with
  | devOpen => exact ⟨_, rfl, finishOpen_untouched (devOpen_violatesOnlyAt s)⟩
  | devClose => exact ⟨_, rfl, finish_untouched (.refl s) (devClose_violatesOnlyAt s)⟩
  | spiConnect f mode bits => exact request_untouched (.refl s) (spiConnect_violatesOnlyAt f mode bits s)
  | spiTx w r => exact request_untouched (s.untouched_loadBufs [r]) (.reply (spiTxPackets_violatesOnlyAt _ _) _)
  | spiTxPackets pkts => exact request_untouched (s.untouched_loadBufs _) (.reply (spiTxPackets_violatesOnlyAt pkts _) _)
  | spiClose => exact request_untouched (.refl s) (spiClose_violatesOnlyAt s)
  | i2cOpen pull => exact request_untouched (.refl s) (onCmd_violatesOnlyAt (i2cOpen_violatesOnlyAt pull s))
  | i2cSetSpeed rate =>
    exact request_untouched (.refl s) (onCmd_violatesOnlyAt (withI2c_violatesOnlyAt fun _ => i2cSetSpeed_violatesOnlyAt rate s))
  | i2cTx addr w r =>
    exact request_untouched (s.untouched_loadBufs [r])
      (onCmd_violatesOnlyAt (withI2c_violatesOnlyAt fun _ => i2cTx_violatesOnlyAt addr w _ _))
  | i2cClose =>
    exact request_untouched (.refl s)
      (onCmd_violatesOnlyAt (withI2c_violatesOnlyAt fun _ => (i2cClose_noViolation s).onlyAt s))
  | gpioOut g n level => exact request_untouched (.refl s) (onPin_violatesOnlyAt (.reply (groupSet_noViolation g _ _ s) _))
  | gpioIn g n => exact request_untouched (.refl s) (onPin_violatesOnlyAt (.reply (groupSet_noViolation g _ _ s) _))
  | gpioRead g n => exact request_untouched (.refl s) (onPin_violatesOnlyAt (.reply (groupRead_noViolation g s) _))
  | _ => cases hi

/-- Settles O49: a request raises a protocol violation only where it began, and its end adds nothing to it but the result. -/
theorem validationLeavesNoTrace : Obligations.ValidationLeavesNoTrace := by
  intro i s t e hi hexec hres he
  obtain ⟨u, hu, hclean⟩ := exec_request_untouched hi s
  obtain rfl : t = u := by rw [hexec] at hu; cases hu; rfl
  obtain ⟨htrace, hste, hbridge, henv⟩ := hclean e hres he
  exact ⟨htrace, hste, hbridge, henv⟩

end Sys2Proof.Machine
end

section
/-! PROOF. Decoding and encoding agree (R57 to R70). An opcode byte is a plain command's, a data shift's, or reserved, and
`decode` gets one equation for each kind. A data shift is named by its selectors: `Instr.ofShift` and `Instr.shift?` are
inverse to each other, so the round trip is the one of a shift's fields. -/

namespace Sys2Proof

/-! ### Fields -/

/-- The two bytes of a field are given back by its value (R34). -/
theorem field16_readField16 (lo hi : Byte) : field16 (readField16 lo hi) = [lo, hi] := by
  have hlo : lo8 (readField16 lo hi) = lo := by
    apply BitVec.eq_of_toNat_eq
    simp only [lo8, readField16, BitVec.toNat_ofNat]
    omega
  have hhi : hi8 (readField16 lo hi) = hi := by
    apply BitVec.eq_of_toNat_eq
    simp only [hi8, readField16, BitVec.toNat_ofNat]
    omega
  rw [field16, hlo, hhi]

theorem readField16_lt (lo hi : Byte) : readField16 lo hi < 65536 := by
  simp only [readField16]
  omega

/-- The count byte of a bit-mode command, from 0 to 7, is given back by its value (R61). -/
theorem lo8_toNat (b : Byte) : lo8 b.toNat = b := by
  rw [lo8, BitVec.ofNat_toNat, BitVec.setWidth_eq]

theorem lo8_of_lt {n : Nat} (h : n < 256) : (lo8 n).toNat = n := by
  rw [lo8, BitVec.toNat_ofNat, Nat.mod_eq_of_lt h]

/-! ### A data shift and its row -/

/-- The selectors of a data-shift opcode make that opcode (R58). -/
theorem ShiftSel.opcode_ofOpcode : ∀ {op : Byte}, isDataShift op = true → (ShiftSel.ofOpcode op).opcode = op := by
  decide

theorem ShiftSel.ofOpcode_dir {op : Byte} (h : isDataShift op = true) :
    ((ShiftSel.ofOpcode op).inn || (ShiftSel.ofOpcode op).out) = true := by
  rw [← ShiftSel.isDataShift_opcode, ShiftSel.opcode_ofOpcode h, h]

theorem ShiftSel.not_mem_emittedSels {sel : ShiftSel} (h : emittedSels.contains sel = false) :
    sel ≠ sel10 ∧ sel ≠ sel11 ∧ sel ≠ sel18 ∧ sel ≠ sel19 ∧ sel ≠ sel20 ∧ sel ≠ sel31 ∧ sel ≠ sel34 ∧ sel ≠ sel39
      ∧ sel ≠ sel3C ∧ sel ≠ sel22 ∧ sel ≠ sel13 := by
  have hnot : sel ∉ emittedSels := mt List.contains_iff_mem.mpr (Bool.eq_false_iff.mp h)
  simpa [emittedSels, and_assoc] using hnot

/-- A shift whose opcode has no row of its own is a DATA_SHIFT. -/
theorem Instr.ofShift_unlisted {sel : ShiftSel} (h : emittedSels.contains sel = false) (n : Nat) (p : List Byte) :
    Instr.ofShift sel n p = .dataShift sel n p := by
  simp [Instr.ofShift, ShiftSel.not_mem_emittedSels h]

/-- The row of an instruction's shift is the instruction, unless it is a DATA_SHIFT of a row's opcode. -/
theorem Instr.ofShift_of_shift? {i : Instr} {sel : ShiftSel} {n : Nat} {p : List Byte}
    (hi : i.shift? = some (sel, n, p)) (hrow : i.isRowShift = false) : Instr.ofShift sel n p = i := by
  cases i with
  | dataShift =>
    cases hi
    exact Instr.ofShift_unlisted hrow n p
  | shiftBytesOut10 | shiftBytesOut11 | shiftBytesOut18 | shiftBytesOut19 | shiftBytesIn | shiftBytesInout31
  | shiftBytesInout34 | shiftBytesInout39 | shiftBytesInout3C | shiftBitsIn | shiftBitsOut =>
    cases hi
    rfl
  | _ => cases hi

/-- What the row of a well-formed shift is: it has these selectors, this count and this payload, and it is well formed and
stands for its own word. -/
theorem Instr.ofShift_spec {sel : ShiftSel} {n : Nat} {p : List Byte} (h : sel.wf n p = true) :
    (Instr.ofShift sel n p).shift? = some (sel, n, p) ∧ (Instr.ofShift sel n p).wf = true
      ∧ (Instr.ofShift sel n p).isRowShift = false := by
  cases hl : emittedSels.contains sel with
  | false =>
    rw [Instr.ofShift_unlisted hl]
    exact ⟨rfl, h, hl⟩
  | true =>
    obtain ⟨-, hpos, hmax, hlen⟩ := ShiftSel.wf_iff.mp h
    have hmem : sel ∈ emittedSels := List.contains_iff_mem.mp hl
    simp only [emittedSels, List.mem_cons, List.not_mem_nil, or_false] at hmem
    rcases hmem with rfl | rfl | rfl | rfl | rfl | rfl | rfl | rfl | rfl | rfl | rfl
    case inr.inr.inr.inr.inl | inr.inr.inr.inr.inr.inr.inr.inr.inr.inl =>
      obtain rfl : p = [] := List.length_eq_zero_iff.mp hlen
      exact ⟨rfl, Bool.and_eq_true_iff.mpr ⟨decide_eq_true hpos, decide_eq_true hmax⟩, rfl⟩
    case inr.inr.inr.inr.inr.inr.inr.inr.inr.inr =>
      obtain ⟨b, rfl⟩ := List.length_eq_one_iff.mp hlen
      exact ⟨rfl, Bool.and_eq_true_iff.mpr ⟨decide_eq_true hpos, decide_eq_true hmax⟩, rfl⟩
    all_goals
      obtain rfl : p.length = n := hlen
      exact ⟨rfl, Bool.and_eq_true_iff.mpr ⟨decide_eq_true hpos, decide_eq_true hmax⟩, rfl⟩

theorem Instr.encode_of_shift? {i : Instr} {sel : ShiftSel} {n : Nat} {p : List Byte} (h : i.shift? = some (sel, n, p)) :
    encode i = encodeShift sel n p := by rw [encode, h]

theorem Instr.encodable_of_shift? {i : Instr} {s : ShiftSel × Nat × List Byte} (h : i.shift? = some s) (hwf : i.wf = true)
    (hrow : i.isRowShift = false) : i.encodable = true := by
  simp [Instr.encodable, Instr.isCommand, h, hwf, hrow]

/-! ### What the decoder answers, for each kind of opcode -/

theorem decode_dataShift {op : Byte} (h : isDataShift op = true) (rest : List Byte) :
    decode (op :: rest) = decodeShift op rest := by
  have hnot := not_mem_plainOpcodes_of_isDataShift h
  simp only [plainOpcodes, List.mem_cons, List.not_mem_nil, or_false, not_or] at hnot
  simp only [decode, hnot, h, if_false, if_true]

theorem decode_reserved {op : Byte} (hplain : op ∉ plainOpcodes) (hshift : isDataShift op = false) (rest : List Byte) :
    decode (op :: rest) = .ok (.reserved op, rest) := by
  simp only [plainOpcodes, List.mem_cons, List.not_mem_nil, or_false, not_or] at hplain
  simp only [decode, hplain, hshift, if_false, Bool.false_eq_true]

section
variable {op : Byte} {sel : ShiftSel} (hsel : ShiftSel.ofOpcode op = sel)
include hsel

theorem decodeShift_bits (hb : sel.bits = true) (nb : Byte) (rest : List Byte) :
    decodeShift op (nb :: rest)
      = if nb.toNat < 8 then decodePayload op sel (nb.toNat + 1) (if sel.out then 1 else 0) rest
        else .error (.badBitCount op nb) := by
  subst hsel
  exact if_pos hb

theorem decodeShift_bytes (hb : sel.bits = false) (lo hi : Byte) (rest : List Byte) :
    decodeShift op (lo :: hi :: rest)
      = decodePayload op sel (readField16 lo hi + 1) (if sel.out then readField16 lo hi + 1 else 0) rest := by
  subst hsel
  exact if_neg (Bool.eq_false_iff.mp hb)

/-- A data shift is decoded from a count and a payload: a count byte below 8 in bit mode, else a two-byte field. -/
theorem decodeShift_ok {bs rest : List Byte} {i : Instr} (h : decodeShift op bs = .ok (i, rest)) :
    (sel.bits = true ∧ ∃ nb tail, bs = nb :: tail ∧ nb.toNat < 8
        ∧ decodePayload op sel (nb.toNat + 1) (if sel.out then 1 else 0) tail = .ok (i, rest))
      ∨ (sel.bits = false ∧ ∃ lo hi tail, bs = lo :: hi :: tail
        ∧ decodePayload op sel (readField16 lo hi + 1) (if sel.out then readField16 lo hi + 1 else 0) tail = .ok (i, rest)) := by
  subst hsel
  unfold decodeShift at h
  dsimp only at h
  split at h
  next hb =>
    split at h
    next => cases h
    next nb tail =>
      split at h
      next hlt => exact .inl ⟨hb, nb, tail, rfl, hlt, h⟩
      next => cases h
  next hb =>
    split at h
    next lo hi tail => exact .inr ⟨Bool.eq_false_iff.mpr hb, lo, hi, tail, rfl, h⟩
    next => cases h

end

theorem decodePayload_append {op : Byte} {sel : ShiftSel} {n len : Nat} {p rest : List Byte} (h : p.length = len) :
    decodePayload op sel n len (p ++ rest) = .ok (Instr.ofShift sel n p, rest) := by
  subst h
  rw [decodePayload, if_pos (by simp), List.take_left, List.drop_left]

theorem decodePayload_ok {op : Byte} {sel : ShiftSel} {n len : Nat} {bs rest : List Byte} {i : Instr}
    (h : decodePayload op sel n len bs = .ok (i, rest)) :
    ∃ p, p.length = len ∧ bs = p ++ rest ∧ i = Instr.ofShift sel n p := by
  unfold decodePayload at h
  split at h
  next hlen =>
    cases h
    exact ⟨bs.take len, List.length_take_of_le hlen, (List.take_append_drop len bs).symm, rfl⟩
  next => cases h

theorem decodeTwo_ok {op : Byte} {f : Byte → Byte → Instr} {bs rest : List Byte} {i : Instr}
    (h : decodeTwo op f bs = .ok (i, rest)) : ∃ a b, bs = a :: b :: rest ∧ i = f a b := by
  unfold decodeTwo at h
  split at h
  next a b bs =>
    cases h
    exact ⟨a, b, rfl, rfl⟩
  next => cases h

/-! ### Decoding what was encoded -/

theorem decode_encodeShift {sel : ShiftSel} {n : Nat} {p : List Byte} (h : sel.wf n p = true) (rest : List Byte) :
    decode (encodeShift sel n p ++ rest) = .ok (Instr.ofShift sel n p, rest) := by
  obtain ⟨hdir, hpos, hmax, hlen⟩ := ShiftSel.wf_iff.mp h
  have hop : isDataShift sel.opcode = true := sel.isDataShift_opcode.trans hdir
  rw [encodeShift, List.cons_append, decode_dataShift hop]
  cases hb : sel.bits with
  | true =>
    rw [hb] at hmax hlen
    have hcount : (lo8 (n - 1)).toNat = n - 1 := lo8_of_lt (by simp only [if_true] at hmax; omega)
    have hlt : (lo8 (n - 1)).toNat < 8 := by simp only [if_true] at hmax; omega
    simp only [if_true, List.cons_append, List.nil_append]
    rw [decodeShift_bits sel.ofOpcode_opcode hb, if_pos hlt, hcount, Nat.sub_add_cancel hpos]
    exact decodePayload_append hlen
  | false =>
    rw [hb] at hmax hlen
    have hfield : n - 1 < 65536 := by simp only [Bool.false_eq_true, if_false, lenMax] at hmax; omega
    simp only [Bool.false_eq_true, if_false, field16, List.cons_append, List.nil_append]
    rw [decodeShift_bytes sel.ofOpcode_opcode hb, Machine.readField16_field _ hfield, Nat.sub_add_cancel hpos]
    exact decodePayload_append hlen

theorem decode_encodePlain {i : Instr} (h : i.isPlain = true) (hwf : i.wf = true) (rest : List Byte) :
    decode (encodePlain i ++ rest) = .ok (i, rest) := by
  cases i with
  | setDivisor d =>
    obtain ⟨hpos, hmax⟩ := Bool.and_eq_true_iff.mp hwf
    have hfield : readField16 (lo8 (d - 1)) (hi8 (d - 1)) + 1 = d := by
      have hd := of_decide_eq_true hpos
      have hmax := of_decide_eq_true hmax
      rw [Machine.readField16_field _ (by simp only [divMax] at hmax; omega), Nat.sub_add_cancel hd]
    show Except.ok (Instr.setDivisor (readField16 (lo8 (d - 1)) (hi8 (d - 1)) + 1), rest) = _
    rw [hfield]
  | setBitsLow | readBitsLow | setBitsHigh | readBitsHigh | sendImmediate | div5Off | div5On | clk3PhaseOn | clk3PhaseOff
  | driveZeroOnly | probe1 | probe2 => rfl
  | _ => cases h

theorem decode_encode {i : Instr} (h : i.encodable = true) (rest : List Byte) :
    decode (encode i ++ rest) = .ok (i, rest) := by
  simp only [Instr.encodable, Bool.and_eq_true, Bool.not_eq_true'] at h
  obtain ⟨⟨hwf, hkind⟩, hrow⟩ := h
  cases hi : i.shift? with
  | some shift =>
    obtain ⟨sel, n, p⟩ := shift
    rw [Instr.encode_of_shift? hi, decode_encodeShift (Instr.shift?_wf hi hwf), Instr.ofShift_of_shift? hi hrow]
  | none =>
    rw [encode, hi]
    cases hp : i.isPlain with
    | true => exact decode_encodePlain hp hwf rest
    | false =>
      have hres : i.isReserved = true := by simpa [Instr.isCommand, hi, hp] using hkind
      cases i with
      | reserved op =>
        simp only [Instr.wf, Bool.and_eq_true, Bool.not_eq_true'] at hwf
        exact decode_reserved (mt List.contains_iff_mem.mpr (Bool.eq_false_iff.mp hwf.1)) hwf.2 rest
      | _ => cases hres

/-! ### Encoding what was decoded -/

/-- The row of a well-formed shift encodes to the shift's bytes, and stands for them. -/
theorem encode_ofShift {sel : ShiftSel} {n : Nat} {p : List Byte} (h : sel.wf n p = true) :
    encode (Instr.ofShift sel n p) = encodeShift sel n p ∧ (Instr.ofShift sel n p).encodable = true := by
  obtain ⟨hshift, hwf, hrow⟩ := Instr.ofShift_spec h
  exact ⟨Instr.encode_of_shift? hshift, Instr.encodable_of_shift? hshift hwf hrow⟩

theorem encode_of_decodeShift {op : Byte} {bs rest : List Byte} {i : Instr} (hop : isDataShift op = true)
    (h : decodeShift op bs = .ok (i, rest)) : encode i ++ rest = op :: bs ∧ i.encodable = true := by
  have hdir := ShiftSel.ofOpcode_dir hop
  have hopcode := ShiftSel.opcode_ofOpcode hop
  generalize hsel : ShiftSel.ofOpcode op = sel at hdir hopcode
  obtain ⟨hb, nb, tail, rfl, hlt, hp⟩ | ⟨hb, lo, hi, tail, rfl, hp⟩ := decodeShift_ok hsel h
  all_goals obtain ⟨p, hlen, rfl, rfl⟩ := decodePayload_ok hp
  · have hwf : sel.wf (nb.toNat + 1) p = true :=
      ShiftSel.wf_iff.mpr ⟨hdir, Nat.succ_pos _, by rw [hb, if_pos rfl]; omega, by rw [hlen, hb]; rfl⟩
    obtain ⟨hencode, hencodable⟩ := encode_ofShift hwf
    refine ⟨?_, hencodable⟩
    rw [hencode, encodeShift, hopcode, hb, if_pos rfl, Nat.add_sub_cancel, lo8_toNat]
    simp only [List.cons_append, List.nil_append]
  · have hlt := readField16_lt lo hi
    have hwf : sel.wf (readField16 lo hi + 1) p = true :=
      ShiftSel.wf_iff.mpr ⟨hdir, Nat.succ_pos _, by rw [hb]; exact hlt, by rw [hlen, hb]; rfl⟩
    obtain ⟨hencode, hencodable⟩ := encode_ofShift hwf
    refine ⟨?_, hencodable⟩
    rw [hencode, encodeShift, hopcode, hb, if_neg Bool.false_ne_true, Nat.add_sub_cancel, field16_readField16]
    simp only [List.cons_append, List.nil_append]

theorem encode_of_decode {bs rest : List Byte} {i : Instr} (h : decode bs = .ok (i, rest)) :
    encode i ++ rest = bs ∧ i.encodable = true := by
  cases bs with
  | nil => cases h
  | cons op bs =>
    by_cases hplain : op ∈ plainOpcodes
    · simp only [plainOpcodes, List.mem_cons, List.not_mem_nil, or_false] at hplain
      rcases hplain with rfl | rfl | rfl | rfl | rfl | rfl | rfl | rfl | rfl | rfl | rfl | rfl | rfl
      case inl | inr.inr.inl | inr.inr.inr.inr.inr.inr.inr.inr.inr.inr.inl =>
        obtain ⟨a, b, rfl, rfl⟩ := decodeTwo_ok h
        exact ⟨rfl, rfl⟩
      case inr.inr.inr.inr.inl =>
        obtain ⟨lo, hi, rfl, rfl⟩ := decodeTwo_ok h
        have hlt := readField16_lt lo hi
        refine ⟨?_, ?_⟩
        · show OPC.setDivisor :: (field16 (readField16 lo hi + 1 - 1) ++ rest) = _
          rw [Nat.add_sub_cancel, field16_readField16]
          rfl
        · simp [Instr.encodable, Instr.wf, Instr.isCommand, Instr.isPlain, Instr.isRowShift]
          omega
      all_goals
        cases h
        exact ⟨rfl, rfl⟩
    · cases hs : isDataShift op with
      | true => exact encode_of_decodeShift hs (by rwa [decode_dataShift hs] at h)
      | false =>
        rw [decode_reserved hplain hs] at h
        cases h
        have hwf : (Instr.reserved op).wf = true := by
          simp only [Instr.wf, hs, Bool.eq_false_iff.mpr (mt List.contains_iff_mem.mp hplain)]
          rfl
        exact ⟨rfl, by simp [Instr.encodable, hwf, Instr.isReserved, Instr.isRowShift]⟩

/-- Settles O12: both ways by the kind of the opcode. -/
theorem decodeEncode : Obligations.DecodeEncode :=
  ⟨fun _ rest h => decode_encode h rest, fun _ _ _ h => encode_of_decode h⟩

end Sys2Proof
end

section
/-! PROOF. What `exec` does with a command, said once for all of them: where R69 lists its opcode, it is that one command run
alone, and a transport error of it strikes the group it concerns. -/

namespace Sys2Proof.Machine

/-- The group a command's transport error strikes (R147 (a)): C for the two commands of group C, else D. -/
def cmdGroup : Instr → GroupId
  | .setBitsHigh _ _ | .readBitsHigh => .c
  | _ => .d

theorem exec_command {i : Instr} (h : i.isCommand = true) (hl : i.listed = true) (s : State) :
    exec i s = runCommand (cmdGroup i) i s := by
  cases i with
  | dataShift sel n p => exact if_pos hl
  | shiftBytesOut10 | shiftBytesOut11 | shiftBytesOut18 | shiftBytesOut19 | shiftBytesIn | shiftBytesInout31
  | shiftBytesInout34 | shiftBytesInout39 | shiftBytesInout3C | shiftBitsIn | shiftBitsOut | setBitsLow | readBitsLow
  | setBitsHigh | readBitsHigh | setDivisor | sendImmediate | div5Off | div5On | clk3PhaseOn | clk3PhaseOff | driveZeroOnly
  | probe1 | probe2 => rfl
  | _ => cases h

/-- A DATA_SHIFT whose opcode R69 does not list is refused. -/
theorem exec_unlisted {i : Instr} (h : i.isCommand = true) (hl : i.listed = false) (s : State) :
    ∃ sel n p, i = .dataShift sel n p ∧ exec i s = .refused (.reservedOpcode sel.opcode) := by
  cases i with
  | dataShift sel n p => exact ⟨sel, n, p, rfl, if_neg (Bool.eq_false_iff.mp hl)⟩
  | _ => cases hl

end Sys2Proof.Machine
end

section
/-! PROOF. The STE never reads the bridge (R25). An operation is blind if, from two states that differ in the bridge alone, it
answers alike and ends in two such states. The logical events are blind, and sequencing keeps it, so every request and every
primitive is. -/

namespace Sys2Proof.Machine

/-! ### States that differ in the bridge alone -/

/-- `s` with another bridge-side state. -/
abbrev State.onBridge (s : State) (b : Bridge) : State := { s with bridge := b }

/-- Two requests in progress that agree on everything but the bridge. -/
inductive Res.SameBut {α : Type} : Res α → Res α → Prop
  | ok (a : α) (s : State) (b : Bridge) : Res.SameBut (.ok a s) (.ok a (s.onBridge b))
  | err (e : Err) (s : State) (b : Bridge) : Res.SameBut (.err e s) (.err e (s.onBridge b))

/-- An operation that does not read the bridge. -/
def Blind {α : Type} (f : State → Res α) : Prop := ∀ s b, (f s).SameBut (f (s.onBridge b))

/-- Two ends of a step that agree on everything but the bridge. -/
def SameEnd : Host.Outcome State Fault Refusal → Host.Outcome State Fault Refusal → Prop
  | .next t, .next t' => ∃ b, t' = t.onBridge b
  | .refused r, .refused r' => r = r'
  | _, _ => False

/-- Sequencing two blind operations. -/
theorem Res.SameBut.bind {α β : Type} {x y : Res α} {f : α → State → Res β} (h : x.SameBut y) (hf : ∀ a, Blind (f a)) :
    (x.bind f).SameBut (y.bind f) := by
  cases h with
  | ok a s b => exact hf a s b
  | err e s b => exact .err e s b

theorem Res.SameBut.ignore {α : Type} {x y : Res α} (h : x.SameBut y) : x.ignore.SameBut y.ignore := by
  cases h with
  | ok a s b => exact .ok () s b
  | err e s b => exact .ok () s b

theorem Res.SameBut.orFailed {α : Type} {x y : Res α} (h : x.SameBut y) : x.orFailed.SameBut y.orFailed := by
  cases h with
  | ok a s b => exact .ok a s b
  | err e s b => exact .err e (s.withSte Ste.openFailed) b

/-- A value put in a reply that is not read from the bridge. -/
theorem Res.SameBut.reply {α : Type} {x y : Res α} {f : α → State → Reply} (h : x.SameBut y)
    (hf : ∀ a s b, f a (State.onBridge s b) = f a s) : (x.reply f).SameBut (y.reply f) :=
  h.bind fun a s b => by rw [hf a s b]; exact .ok _ s b

theorem Blind.ok {α : Type} (a : α) : Blind (.ok a) := fun s b => .ok a s b

theorem Blind.err {α : Type} (e : Err) : Blind (.err e : State → Res α) := fun s b => .err e s b

theorem Blind.ok_withSte {α : Type} (a : α) (f : Ste → Ste) :
    Blind fun s => .ok a (s.withSte f) := fun s b => .ok a (s.withSte f) b

/-! ### The logical events -/

theorem emitSamples_blind (bs : List Byte) : Blind (emitSamples bs) := by
  intro s b
  have hout : (s.onBridge b).wrOut bs = s.wrOut bs := rfl
  unfold emitSamples
  rw [hout]
  split
  · exact .ok _ _ _
  · exact .err _ _ _

theorem emitCmds_blind (cs : List Instr) : Blind (emitCmds cs) := by
  intro s b
  have hout : (s.onBridge b).wrOut (encodeAll cs) = s.wrOut (encodeAll cs) := rfl
  unfold emitCmds
  rw [hout]
  cases s.cfg.chip with
  | bb => exact emitSamples_blind _ s b
  | cmd =>
    dsimp only
    split
    · exact .ok _ _ _
    · exact .err _ _ _

/-- Commands that are computed from anything but the bridge. -/
theorem emitCmds_blind_of {cs : State → List Instr} (h : ∀ s b, cs (State.onBridge s b) = cs s) :
    Blind fun s => emitCmds (cs s) s := fun s b => by
  show (emitCmds (cs s) s).SameBut (emitCmds (cs (s.onBridge b)) (s.onBridge b))
  rw [h s b]
  exact emitCmds_blind _ s b

theorem rd_blind (n : Nat) : Blind (rd n) := by
  intro s b
  have hout : (s.onBridge b).rdOut n = s.rdOut n := rfl
  unfold rd
  rw [hout]
  split
  · exact .ok _ _ _
  · exact .err _ _ _
  · exact .err _ _ _

theorem flush_blind : Blind flush := by
  intro s b
  have hout : (s.onBridge b).flOut = s.flOut := rfl
  unfold flush
  rw [hout]
  dsimp only
  split
  · exact .ok _ _ _
  · exact .err _ _ _

theorem ctrl_blind (q : CtrlReq) : Blind (ctrl q) := by
  intro s b
  unfold ctrl
  dsimp only
  split
  · exact .ok _ _ _
  · exact .err _ _ _

/-! ### The serial engine -/

theorem clockSelect_blind (f : Rat) : Blind (clockSelect f) := by
  intro s b
  unfold clockSelect
  cases clockPlan s.cfg f with
  | none => exact .err _ s b
  | some plan =>
    obtain ⟨low, d⟩ := plan
    have hw := emitCmds_blind (clockSeq low d) s b
    dsimp only
    generalize emitCmds (clockSeq low d) s = x at hw
    generalize emitCmds (clockSeq low d) (s.onBridge b) = y at hw
    cases hw with
    | ok _ t b => exact .ok _ _ b
    | err e t b => exact .err e _ b

theorem bbGroupSet_blind (val dir : Byte) : Blind (bbGroupSet val dir) := by
  have hdir : Blind (bbDirection dir) := by
    intro s b
    unfold bbDirection
    by_cases h : dir = s.ste.bbdir
    · simpa [h] using .ok () s b
    · simpa [h] using ctrl_blind _ s b
  exact fun s b => (hdir s b).bind fun _ s b => (emitSamples_blind _ s b).bind fun _ s b =>
    (rd_blind 1 s b).bind fun _ => .ok_withSte () _

theorem groupSet_blind (g : GroupId) (val dir : Byte) : Blind (groupSet g val dir) := by
  intro s b
  unfold groupSet
  cases s.cfg.chip with
  | cmd => cases g <;> exact emitCmds_blind _ s b
  | bb => exact bbGroupSet_blind val dir s b

theorem groupRead_blind (g : GroupId) : Blind (groupRead g) := by
  intro s b
  unfold groupRead
  refine .bind ?_ fun _ s b => (rd_blind 1 s b).bind fun _ => .ok _
  cases s.cfg.chip with
  | cmd => cases g <;> exact emitCmds_blind _ s b
  | bb => exact emitSamples_blind _ s b

/-! ### Opening and closing the device -/

theorem verifyProbe_blind (i : Instr) (x : Byte) : Blind (verifyProbe i x) := fun s b =>
  (emitCmds_blind _ s b).bind fun _ s b => (rd_blind 2 s b).bind fun r s b => by
    dsimp only
    split
    · exact .ok () s b
    · exact .err _ s b

theorem verifyMode_blind : Blind verifyMode := fun s b =>
  (verifyProbe_blind _ _ s b).bind fun _ s b => (verifyProbe_blind _ _ s b).bind fun _ _ _ => .ok _ _ _

theorem fastPath_blind : Blind fastPath := fun s b =>
  (ctrl_blind _ s b).bind fun _ s b => (ctrl_blind _ s b).bind fun _ s b => (ctrl_blind _ s b).bind fun _ s b =>
    (flush_blind s b).bind fun _ => verifyMode_blind

theorem attempt_blind (first : Bool) : Blind (attempt first) := by
  cases first with
  | true => exact fastPath_blind
  | false =>
    exact fun s b => Res.SameBut.bind ((ctrl_blind _ s b).bind fun _ s b => (flush_blind s b).ignore) fun _ => fastPath_blind

theorem openFinal_blind : Blind openFinal := fun s b => (emitCmds_blind _ s b).bind fun _ => .ok_withSte () _

theorem openCmd_blind : Blind openCmd := by
  intro s b
  have hfirst := attempt_blind true s b
  unfold openCmd
  generalize attempt true s = x at hfirst
  generalize attempt true (s.onBridge b) = y at hfirst
  cases hfirst with
  | ok _ t b => exact (openFinal_blind t b).orFailed
  | err _ t b => exact ((attempt_blind false t b).bind fun _ => openFinal_blind).orFailed

theorem openBb_blind : Blind openBb := fun s b =>
  Res.SameBut.orFailed <| (ctrl_blind _ s b).bind fun _ s b => (ctrl_blind _ s b).bind fun _ s b =>
    (ctrl_blind _ s b).bind fun _ s b => (flush_blind s b).ignore.bind fun _ _ _ => .ok _ _ _

theorem devOpen_blind : Blind devOpen := by
  intro s b
  unfold devOpen
  by_cases h : s.ste.dev = .opened
  · simpa only [h, if_true] using .err _ s b
  · simp only [h, if_false]
    cases s.cfg.chip with
    | cmd => exact openCmd_blind s b
    | bb => exact openBb_blind s b

theorem devClose_blind : Blind devClose := by
  intro s b
  unfold devClose
  by_cases h : s.ste.dev = .closed
  · simpa only [h, if_true] using .err _ s b
  · simp only [h, if_false]
    exact .ok _ _ b

/-! ### GPIO and I²C requests -/

theorem gpioOut_blind (g : GroupId) (i : Fin 8) (level : Bool) : Blind (gpioOut g i level) := fun s b =>
  (groupSet_blind g (gpioVal (s.ste.grp g).val i level) ((s.ste.grp g).dir ||| pinMask i) s b).reply fun _ _ _ => rfl

theorem gpioIn_blind (g : GroupId) (i : Fin 8) : Blind (gpioIn g i) := fun s b =>
  (groupSet_blind g (s.ste.grp g).val ((s.ste.grp g).dir &&& ~~~(pinMask i)) s b).reply fun _ _ _ => rfl

theorem gpioRead_blind (g : GroupId) (i : Fin 8) : Blind (gpioRead g i) := fun s b =>
  (groupRead_blind g s b).reply fun _ _ _ => rfl

theorem onPin_blind {g : GroupId} {i : Fin 8} {body : State → Res Reply} (h : Blind body) : Blind (onPin g i body) := by
  intro s b
  unfold onPin
  dsimp only
  split
  · exact .err _ s b
  · exact h s b

theorem onCmd_blind {body : State → Res Reply} (h : Blind body) : Blind (onCmd body) := by
  intro s b
  unfold onCmd
  dsimp only
  split
  · exact h s b
  · exact .err _ s b

theorem withI2c_blind {body : I2cBus → State → Res Reply} (h : ∀ x, Blind (body x)) : Blind (withI2c body) := by
  intro s b
  unfold withI2c
  dsimp only
  split
  · exact .err _ s b
  · exact h _ s b

theorem i2cOpen_blind (pull : Pull) : Blind (i2cOpen pull) := by
  intro s b
  unfold i2cOpen
  cases pull with
  | pullup => exact .err _ s b
  | float =>
    dsimp only
    split
    · exact .err _ s b
    · exact (clockSelect_blind _ s b).bind fun _ s b => (emitCmds_blind _ s b).bind fun _ s b => .ok _ _ b

theorem i2cSetSpeed_blind (rate : Nat) : Blind (i2cSetSpeed rate) := fun s b =>
  (clockSelect_blind _ s b).bind fun _ => .ok_withSte _ _

theorem i2cClose_blind : Blind i2cClose := fun s b =>
  (emitCmds_blind i2cCloseSeq (s.withSte fun t => { t with i2c := none, usingI2c := false }) b).reply fun _ _ _ => rfl

theorem i2cStopIdle_blind : Blind i2cStopIdle := fun s b => emitCmds_blind _ s b

theorem i2cWriteByte_blind (x : Byte) : Blind (i2cWriteByte x) := fun s b =>
  (emitCmds_blind _ s b).bind fun _ s b => (rd_blind 1 s b).bind fun a s b => by
    split
    · exact (i2cStopIdle_blind s b).bind fun _ => .err _
    · exact .ok () s b

theorem i2cWriteBytes_blind (bs : List Byte) : Blind (i2cWriteBytes bs) := by
  induction bs with
  | nil => exact .ok ()
  | cons x bs ih => exact fun s b => (i2cWriteByte_blind x s b).bind fun _ => ih

theorem i2cReadBytes_blind (count j : Nat) : Blind (i2cReadBytes count j) := by
  induction count generalizing j with
  | zero => exact .ok ()
  | succ count ih =>
    exact fun s b => (emitCmds_blind _ s b).bind fun _ s b => (rd_blind 1 s b).bind fun x s b => ih _ (s.writeBuf 0 j x) b

theorem i2cTx_blind (addr : Nat) (w : List Byte) (len : Nat) : Blind (i2cTx addr w len) := by
  intro s b
  unfold i2cTx
  split
  · exact .err _ s b
  · exact (emitCmds_blind _ s b).bind fun _ s b => (i2cWriteBytes_blind _ s b).bind fun _ s b =>
      (i2cReadBytes_blind _ _ s b).bind fun _ s b => (i2cStopIdle_blind s b).bind fun _ s b => .ok _ s b

/-! ### SPI requests -/

theorem connectClock_blind (c : SpiConn) : Blind (connectClock c) := by
  intro s b
  unfold connectClock
  dsimp only
  split
  · exact (clockSelect_blind _ s b).bind fun _ => .ok ()
  · exact .ok () s b

theorem connectRate_blind (c : SpiConn) : Blind (connectRate c) := by
  intro s b
  have hrate := ctrl_blind (.setRate (2 * c.freq)) s b
  unfold connectRate
  dsimp only
  split
  · generalize ctrl (.setRate (2 * c.freq)) s = x at hrate
    generalize ctrl (.setRate (2 * c.freq)) (s.onBridge b) = y at hrate
    cases hrate with
    | ok _ t b => exact .ok _ _ b
    | err e t b => exact .err e _ b
  · exact .ok () s b

theorem connectIo_blind (c : SpiConn) : Blind (connectIo c) := by
  intro s b
  unfold connectIo
  cases s.cfg.chip with
  | cmd => exact (connectClock_blind c s b).bind fun _ s b => emitCmds_blind _ s b
  | bb => exact (connectRate_blind c s b).bind fun _ s b => bbGroupSet_blind _ _ s b

theorem spiConnect_blind (f mode bits : Nat) : Blind (spiConnect f mode bits) := by
  intro s b
  unfold spiConnect
  dsimp only
  split
  · exact .err _ s b
  · exact (connectIo_blind _ s b).bind fun _ => .ok_withSte _ _

theorem readChunk_blind (p : Packet) (j k : Nat) : Blind (readChunk p j k) := by
  intro s b
  unfold readChunk
  split
  · exact (rd_blind _ s b).bind fun x s b => .ok () (s.writeBuf _ _ x) b
  · exact .ok () s b

theorem emitChunk_blind (c : SpiConn) (p : Packet) (j k : Nat) (head : List Instr) : Blind (emitChunk c p j k head) :=
  fun s b => emitCmds_blind _ s b

theorem txChunks_blind (c : SpiConn) (p : Packet) (j count k : Nat) : Blind (txChunks c p j count k) := by
  induction count generalizing k with
  | zero => exact .ok ()
  | succ count ih =>
    exact fun s b => (emitChunk_blind c p j k [] s b).bind fun _ s b => (readChunk_blind p j _ s b).bind fun _ => ih _

theorem emitTrailer_blind (c : SpiConn) : Blind (emitTrailer c) := by
  intro s b
  unfold emitTrailer
  dsimp only
  split
  · exact .ok () s b
  · exact emitCmds_blind _ s b

theorem txPacket_blind (c : SpiConn) (p : Packet) (j : Nat) : Blind (txPacket c p j) := fun s b =>
  (emitChunk_blind c p j 0 _ s b).bind fun _ s b => (txChunks_blind c p j _ 1 s b).bind fun _ s b =>
    (readChunk_blind p j _ s b).bind fun _ => emitTrailer_blind c

theorem bbPacket_blind (c : SpiConn) (p : Packet) (j : Nat) : Blind (bbPacket c p j) := fun s b =>
  (emitSamples_blind _ s b).bind fun _ s b => (rd_blind _ s b).bind fun resp s b => by
    dsimp only
    split
    · exact .ok () (s.writeBuf _ _ _) b
    · exact .ok () s b

theorem sendPackets_blind (c : SpiConn) (j : Nat) (ps : List Packet) : Blind (sendPackets c j ps) := by
  induction ps generalizing j with
  | nil => exact .ok ()
  | cons p ps ih =>
    have hsend : Blind (sendPacket c p j) := by
      intro s b
      unfold sendPacket
      cases s.cfg.chip with
      | cmd => exact txPacket_blind c p j s b
      | bb => exact bbPacket_blind c p j s b
    exact fun s b => (hsend s b).bind fun _ => ih _

theorem spiTxPackets_blind (pkts : List Packet) : Blind (spiTxPackets pkts) := by
  intro s b
  unfold spiTxPackets
  dsimp only
  split
  · exact .err _ s b
  · split
    · exact .err _ s b
    · exact sendPackets_blind _ 0 pkts s b

theorem spiClose_blind : Blind spiClose := by
  intro s b
  unfold spiClose
  dsimp only
  split
  · exact .err _ s b
  · exact .ok _ _ b

/-! ### The end of a request -/

theorem finish_sameEnd (g : GroupId) {x y : Res Reply} (h : x.SameBut y) :
    SameEnd (.next (finish g x)) (.next (finish g y)) := by
  cases h with
  | ok v s b => exact ⟨b, rfl⟩
  | err e s b =>
    simp only [finish, State.raise]
    split <;> exact ⟨_, rfl⟩

theorem finishOpen_sameEnd {x y : Res Unit} (h : x.SameBut y) : SameEnd (.next (finishOpen x)) (.next (finishOpen y)) := by
  cases h with
  | ok a s b => exact ⟨b, rfl⟩
  | err e s b => exact ⟨b, rfl⟩

theorem request_sameEnd (g : GroupId) {body : State → Res Reply} (h : Blind body) (s : State) (b : Bridge) :
    SameEnd (request g body s) (request g body (s.onBridge b)) := by
  refine finish_sameEnd g ?_
  unfold whenOpen
  dsimp only
  split
  · exact h s b
  · exact .err _ s b

theorem composite_sameEnd {body : State → Res Unit} (h : Blind body) (s : State) (b : Bridge) :
    SameEnd (composite body s) (composite body (s.onBridge b)) :=
  request_sameEnd .d (fun s b => (h s b).reply fun _ _ _ => rfl) s b

theorem withSpi_sameEnd {body : SpiConn → State → Res Unit} (h : ∀ c, Blind (body c)) (s : State) (b : Bridge) :
    SameEnd (withSpi body s) (withSpi body (s.onBridge b)) := by
  refine composite_sameEnd (fun s b => ?_) s b
  dsimp only
  split
  · exact .err _ s b
  · exact h _ s b

theorem onValid_blind (p : Packet) {body : State → Res Unit} (h : Blind body) : Blind (onValid p body) := by
  intro s b
  unfold onValid
  split
  · exact .err _ s b
  · exact h s b

theorem runCmds_sameEnd (g : GroupId) (cs : List Instr) (s : State) (b : Bridge) :
    SameEnd (runCmds g cs s) (runCmds g cs (s.onBridge b)) :=
  finish_sameEnd g ((emitCmds_blind cs s b).reply fun _ _ _ => rfl)

theorem runCommand_sameEnd (g : GroupId) (i : Instr) (s : State) (b : Bridge) :
    SameEnd (runCommand g i s) (runCommand g i (s.onBridge b)) := by
  unfold runCommand
  split
  · exact runCmds_sameEnd g [i] s b
  · rfl

theorem runCtrl_sameEnd (q : CtrlReq) (s : State) (b : Bridge) : SameEnd (runCtrl q s) (runCtrl q (s.onBridge b)) :=
  finish_sameEnd .d ((ctrl_blind q s b).reply fun _ _ _ => rfl)

/-! ### Every instruction -/

theorem exec_command_sameEnd {i : Instr} (hi : i.isCommand = true) (s : State) (b : Bridge) :
    SameEnd (exec i s) (exec i (s.onBridge b)) := by
  cases hl : i.listed with
  | true =>
    rw [exec_command hi hl, exec_command hi hl]
    exact runCommand_sameEnd _ i s b
  | false =>
    obtain ⟨sel, n, p, rfl, h⟩ := exec_unlisted hi hl s
    obtain ⟨_, _, _, ⟨⟩, h'⟩ := exec_unlisted hi hl (s.onBridge b)
    rw [h, h']
    rfl

theorem exec_sameEnd (i : Instr) (s : State) (b : Bridge) : SameEnd (exec i s) (exec i (s.onBridge b)) := by
  cases i with
  | dataShift | shiftBytesOut10 | shiftBytesOut11 | shiftBytesOut18 | shiftBytesOut19 | shiftBytesIn | shiftBytesInout31
  | shiftBytesInout34 | shiftBytesInout39 | shiftBytesInout3C | shiftBitsIn | shiftBitsOut | setBitsLow | readBitsLow
  | setBitsHigh | readBitsHigh | setDivisor | sendImmediate | div5Off | div5On | clk3PhaseOn | clk3PhaseOff | driveZeroOnly
  | probe1 | probe2 => exact exec_command_sameEnd rfl s b
  | reserved op => rfl
  | badCmd op =>
    simp only [exec, execBadCmd]
    split <;> exact ⟨_, rfl⟩
  | bbSample x =>
    simp only [exec, execBbSample]
    cases s.cfg.chip with
    | cmd => rfl
    | bb => exact finish_sameEnd .d ((emitSamples_blind _ s b).reply fun _ _ _ => rfl)
  | resetDevice | init => exact runCtrl_sameEnd _ s b
  | setBitmode mask mode =>
    simp only [exec, execSetBitmode]
    split
    · exact runCtrl_sameEnd _ s b
    · rfl
  | setRate r =>
    simp only [exec, execSetRate]
    split
    · exact runCtrl_sameEnd _ s b
    · rfl
  | devOpen => exact finishOpen_sameEnd (devOpen_blind s b)
  | devClose => exact finish_sameEnd .d (devClose_blind s b)
  | spiConnect f mode bits => exact request_sameEnd .d (spiConnect_blind f mode bits) s b
  | spiTx w r => exact request_sameEnd .d (fun s b => (spiTxPackets_blind _ s b).reply fun _ _ _ => rfl) (s.loadBufs [r]) b
  | spiTxPackets pkts =>
    exact request_sameEnd .d (fun s b => (spiTxPackets_blind pkts s b).reply fun _ _ _ => rfl) (s.loadBufs _) b
  | spiClose => exact request_sameEnd .d spiClose_blind s b
  | i2cOpen pull => exact request_sameEnd .d (onCmd_blind (i2cOpen_blind pull)) s b
  | i2cSetSpeed rate => exact request_sameEnd .d (onCmd_blind (withI2c_blind fun _ => i2cSetSpeed_blind rate)) s b
  | i2cTx addr w r =>
    exact request_sameEnd .d (onCmd_blind (withI2c_blind fun _ => i2cTx_blind addr w _)) (s.loadBufs [r]) b
  | i2cClose => exact request_sameEnd .d (onCmd_blind (withI2c_blind fun _ => i2cClose_blind)) s b
  | gpioOut g n level => exact request_sameEnd g (onPin_blind (gpioOut_blind g n level)) s b
  | gpioIn g n => exact request_sameEnd g (onPin_blind (gpioIn_blind g n)) s b
  | gpioRead g n => exact request_sameEnd g (onPin_blind (gpioRead_blind g n)) s b
  | spiHeader =>
    exact withSpi_sameEnd (body := fun c s => emitCmds (spiHeaderSeq c s.ste.grpD) s)
      (fun c => emitCmds_blind_of fun _ _ => rfl) s b
  | spiTrailer =>
    refine withSpi_sameEnd (body := fun c s => if c.nocs then .ok () s else emitCmds (spiTrailerSeq c s.ste.grpD) s)
      (fun c s b => ?_) s b
    split
    · exact .ok () s b
    · exact emitCmds_blind _ s b
  | chunkCmd p k =>
    simp only [exec, execChunkCmd]
    split
    · rfl
    · exact withSpi_sameEnd (fun c => onValid_blind p (emitCmds_blind_of fun _ _ => rfl)) s b
  | clockCmds low d =>
    simp only [exec, execClockCmds]
    split
    · exact runCmds_sameEnd _ _ s b
    · rfl
  | probe x =>
    simp only [exec, execProbe]
    split
    · exact runCmds_sameEnd _ _ s b
    · rfl
  | i2cStart => exact composite_sameEnd (emitCmds_blind_of (cs := fun s => i2cStartSeq s.cfg.k s.ste.grpD) fun _ _ => rfl) s b
  | i2cStop => exact composite_sameEnd (emitCmds_blind_of (cs := fun s => i2cStopSeq s.cfg.k s.ste.grpD) fun _ _ => rfl) s b
  | i2cIdle => exact composite_sameEnd (emitCmds_blind_of (cs := fun s => i2cIdleSeq s.ste.grpD) fun _ _ => rfl) s b
  | i2cWb x => exact composite_sameEnd (emitCmds_blind_of (cs := fun s => i2cWbSeq s.ste.grpD x) fun _ _ => rfl) s b
  | i2cRb last => exact composite_sameEnd (emitCmds_blind_of (cs := fun s => i2cRbSeq s.ste.grpD last) fun _ _ => rfl) s b
  | bbFrame p =>
    simp only [exec, execBbFrame]
    cases s.cfg.chip with
    | cmd => rfl
    | bb =>
      have hframe : ∀ c, Blind fun s => emitSamples (bbFrameOf c s.ste.grpD p) s := fun c s b =>
        emitSamples_blind (bbFrameOf c s.ste.grpD p) s b
      exact withSpi_sameEnd (fun c => onValid_blind p (hframe c)) s b

/-- The bridge does not tell what is fetched. -/
theorem fetch_onBridge (s : State) (b : Bridge) :
    fetch (s.onBridge b)
      = match fetch s with
        | .idle => .idle
        | .instr i t => .instr i (t.onBridge b)
        | .stop r => .stop r := by
  have hdecoded : ∀ (d : Decoded) (f : List Byte → Bench) (bench : List Bench),
      fetchDecoded d f bench (s.onBridge b)
        = match fetchDecoded d f bench s with
          | .idle => .idle
          | .instr i t => .instr i (t.onBridge b)
          | .stop r => .stop r := by
    intro d f bench
    cases d <;> rfl
  unfold fetch
  dsimp only
  split
  · exact hdecoded _ _ _
  · exact hdecoded _ _ _
  · rfl
  · split
    · rfl
    · split <;> rfl

theorem step_sameEnd (s : State) (b : Bridge) : SameEnd (step s) (step (s.onBridge b)) := by
  unfold step
  rw [fetch_onBridge s b]
  dsimp only
  split
  · cases fetch s with
    | idle => exact ⟨b, rfl⟩
    | instr i t => exact exec_sameEnd i t b
    | stop r => rfl
  · rfl

/-- Settles O60: what is fetched and what each instruction does are told by the rest of the state. -/
theorem bridgeNotRead : Obligations.BridgeNotRead := step_sameEnd

end Sys2Proof.Machine
end

section
/-! PROOF. What the requests on an open device are made of, walked through once. A relation between states that the logical
events keep (`Walk`) is kept by all the I/O of every request, on success (`R`) and up to the error (`E`). The invariants and
the statements about errors are uses of it; only the clock steps and the last field updates differ from request to
request. -/

namespace Sys2Proof.Machine

/-! ### Quiet commands -/

/-- A write of these bytes is no CLOCK_SELECT's. -/
def QuietBytes (bs : List Byte) : Prop := ∀ n ok, isClockEvent (.wr bs n ok) = false

/-- A command the requests send outside CLOCK_SELECT: R69 lists its opcode, it leaves the clock alone, and with parameters R8
allows its operands have an encoding. -/
structure QuietCmd (p : Params) (i : Instr) : Prop where
  isCommand : i.isCommand = true
  listed : i.listed = true
  clock : setsClock i = false
  wf : p.ok = true → i.wf = true

theorem QuietCmd.emittable {p : Params} {i : Instr} (h : QuietCmd p i) (hp : p.ok = true) : i.emittable = true := by
  simp [Instr.emittable, h.isCommand, h.wf hp, h.listed]

theorem quietBytes_of_head {b : Byte} {bs : List Byte} (h : b ≠ 0x8A ∧ b ≠ 0x8B) : QuietBytes (b :: bs) := by
  intro n ok
  unfold isClockEvent
  split
  next heq =>
    cases heq
    have hb : (b == 0x8A || b == 0x8B) = false := by simpa using h
    rw [hb, Bool.false_and]
  next heq => cases heq
  next => rfl

theorem quietBytes_of_length {bs : List Byte} (h : bs.length ≠ 4) : QuietBytes bs := by
  intro n ok
  unfold isClockEvent
  split
  next heq =>
    cases heq
    exact absurd rfl h
  next heq => cases heq
  next => rfl

/-- No data-shift opcode is a base select. -/
theorem shiftOpcode_ne_div5 (sel : ShiftSel) : sel.opcode ≠ 0x8A ∧ sel.opcode ≠ 0x8B := by
  have hbits : ∀ inn out lsb inFall bits outFall : Bool,
      (ShiftSel.mk inn out lsb inFall bits outFall).opcode ≠ 0x8A
        ∧ (ShiftSel.mk inn out lsb inFall bits outFall).opcode ≠ 0x8B := by decide
  exact hbits ..

/-- The first byte of a command that leaves the clock alone is no base select. -/
theorem encode_head_of_quiet {i : Instr} (hi : i.isCommand = true) (hc : setsClock i = false) :
    ∃ b bs, encode i = b :: bs ∧ b ≠ 0x8A ∧ b ≠ 0x8B := by
  cases hs : i.shift? with
  | some shift =>
    obtain ⟨sel, n, p⟩ := shift
    exact ⟨_, _, Instr.encode_of_shift? hs, shiftOpcode_ne_div5 sel⟩
  | none =>
    have hplain : i.isPlain = true := by simpa [Instr.isCommand, hs] using hi
    cases i with
    | setBitsLow | readBitsLow | setBitsHigh | readBitsHigh | sendImmediate | clk3PhaseOn | clk3PhaseOff | driveZeroOnly
    | probe1 | probe2 => exact ⟨_, _, rfl, by decide, by decide⟩
    | setDivisor | div5Off | div5On => cases hc
    | _ => cases hplain

theorem quietBytes_encodeAll {p : Params} {cs : List Instr} (h : ∀ i ∈ cs, QuietCmd p i) : QuietBytes (encodeAll cs) := by
  cases cs with
  | nil => exact quietBytes_of_length (by decide)
  | cons i cs =>
    have hi := h i List.mem_cons_self
    obtain ⟨b, bs, hb, hne⟩ := encode_head_of_quiet hi.isCommand hi.clock
    rw [encodeAll, List.flatMap_cons, hb]
    exact quietBytes_of_head hne

/-! ### The sequences the requests send are quiet -/

section
variable {p : Params}

theorem QuietCmd.setBitsLow (val dir : Byte) : QuietCmd p (.setBitsLow val dir) := ⟨rfl, rfl, rfl, fun _ => rfl⟩
theorem QuietCmd.setBitsHigh (val dir : Byte) : QuietCmd p (.setBitsHigh val dir) := ⟨rfl, rfl, rfl, fun _ => rfl⟩
theorem QuietCmd.sendImmediate : QuietCmd p .sendImmediate := ⟨rfl, rfl, rfl, fun _ => rfl⟩
theorem QuietCmd.driveZeroOnly (d c : Byte) : QuietCmd p (.driveZeroOnly d c) := ⟨rfl, rfl, rfl, fun _ => rfl⟩
theorem QuietCmd.clk3PhaseOff : QuietCmd p .clk3PhaseOff := ⟨rfl, rfl, rfl, fun _ => rfl⟩
theorem QuietCmd.clk3PhaseOn : QuietCmd p .clk3PhaseOn := ⟨rfl, rfl, rfl, fun _ => rfl⟩

theorem spiHeaderSeq_quiet (c : SpiConn) (g : Group) : ∀ i ∈ spiHeaderSeq c g, QuietCmd p i := by
  unfold spiHeaderSeq
  cases c.nocs <;> simp [QuietCmd.setBitsLow]

theorem spiTrailerSeq_quiet (c : SpiConn) (g : Group) : ∀ i ∈ spiTrailerSeq c g, QuietCmd p i := by
  unfold spiTrailerSeq
  cases c.nocs <;> simp [QuietCmd.setBitsLow]

theorem connectSeq_quiet (c : SpiConn) (g : Group) : ∀ i ∈ connectSeq c g, QuietCmd p i := by
  simp [connectSeq, QuietCmd.setBitsLow, QuietCmd.driveZeroOnly, QuietCmd.clk3PhaseOff]

theorem i2cSet_quiet (g : Group) (scl sda : Bool) : QuietCmd p (i2cSet g scl sda) := .setBitsLow _ _

theorem i2cStartSeq_quiet (k : Nat) (g : Group) : ∀ i ∈ i2cStartSeq k g, QuietCmd p i := by
  intro i hi
  simp only [i2cStartSeq, List.mem_append, List.mem_replicate] at hi
  obtain ⟨-, rfl⟩ | ⟨-, rfl⟩ := hi <;> exact i2cSet_quiet ..

theorem i2cStopIdleSeq_quiet (k : Nat) (g : Group) : ∀ i ∈ i2cStopSeq k g ++ i2cIdleSeq g, QuietCmd p i := by
  intro i hi
  simp only [i2cStopSeq, i2cIdleSeq, List.mem_append, List.mem_replicate, List.mem_singleton] at hi
  obtain ((⟨-, rfl⟩ | ⟨-, rfl⟩) | ⟨-, rfl⟩) | rfl := hi <;> exact i2cSet_quiet ..

theorem i2cWbSeq_quiet (g : Group) (b : Byte) : ∀ i ∈ i2cWbSeq g b, QuietCmd p i := by
  exact List.forall_mem_cons.mpr ⟨⟨rfl, rfl, rfl, fun _ => rfl⟩, List.forall_mem_cons.mpr ⟨i2cSet_quiet ..,
    List.forall_mem_cons.mpr ⟨⟨rfl, rfl, rfl, fun _ => rfl⟩, List.forall_mem_cons.mpr ⟨.sendImmediate, nofun⟩⟩⟩⟩

theorem i2cRbSeq_quiet (g : Group) (last : Bool) : ∀ i ∈ i2cRbSeq g last, QuietCmd p i := by
  exact List.forall_mem_cons.mpr ⟨⟨rfl, rfl, rfl, fun _ => rfl⟩, List.forall_mem_cons.mpr ⟨⟨rfl, rfl, rfl, fun _ => rfl⟩,
    List.forall_mem_cons.mpr ⟨i2cSet_quiet .., List.forall_mem_cons.mpr ⟨.sendImmediate, nofun⟩⟩⟩⟩

theorem i2cOpenSeq_quiet (g : Group) : ∀ i ∈ i2cOpenSeq g, QuietCmd p i := by
  exact List.forall_mem_cons.mpr ⟨.clk3PhaseOn, List.forall_mem_cons.mpr ⟨.driveZeroOnly _ _,
    List.forall_mem_cons.mpr ⟨i2cSet_quiet .., nofun⟩⟩⟩

theorem i2cCloseSeq_quiet : ∀ i ∈ i2cCloseSeq, QuietCmd p i := by
  simp [i2cCloseSeq, QuietCmd.driveZeroOnly, QuietCmd.clk3PhaseOff]

end

/-- The opcode of a chunk is one R69 lists: input and output are clocked on opposite edges (R59). -/
theorem chunkSel_emitted (c : SpiConn) (reads : Bool) :
    emittedSels.contains (transferSel true reads (writeFall c) (readFall c) c.lsbf false) = true := by
  have hbits : ∀ reads fall lsb : Bool, emittedSels.contains (transferSel true reads fall (!fall) lsb false) = true := by
    decide
  exact hbits ..

/-- A shift's row is a command with the shift's opcode, and leaves the clock alone. -/
theorem ofShift_command (sel : ShiftSel) (n : Nat) (p : List Byte) :
    (Instr.ofShift sel n p).isCommand = true ∧ setsClock (Instr.ofShift sel n p) = false
      ∧ (emittedSels.contains sel = true → (Instr.ofShift sel n p).listed = true) := by
  cases hl : emittedSels.contains sel with
  | false =>
    rw [Instr.ofShift_unlisted hl]
    exact ⟨rfl, rfl, nofun⟩
  | true =>
    have hmem : sel ∈ emittedSels := List.contains_iff_mem.mp hl
    simp only [emittedSels, List.mem_cons, List.not_mem_nil, or_false] at hmem
    rcases hmem with rfl | rfl | rfl | rfl | rfl | rfl | rfl | rfl | rfl | rfl | rfl <;> exact ⟨rfl, rfl, fun _ => rfl⟩

theorem packetError_none {p : Packet} (h : packetError p = none) :
    1 ≤ packetLen p ∧ (hasW p = true → p.w.length = packetLen p) ∧ (hasR p = true → p.r.length = packetLen p) := by
  unfold packetError at h
  split at h
  · cases h
  · split at h
    · cases h
    · split at h
      · cases h
      · split at h
        · cases h
        · simp only [packetLen, hasW, hasR, decide_eq_true_eq]
          omega

theorem chunkSrc_length {p : Packet} {r : List Byte} (h : packetError p = none) (hr : r.length = p.r.length) :
    (chunkSrc p r).length = packetLen p := by
  obtain ⟨-, hw, -⟩ := packetError_none h
  unfold chunkSrc
  cases hcase : hasW p with
  | true => exact hw hcase
  | false =>
    have hzero : p.w.length = 0 := by simpa [hasW] using hcase
    simp [hr, packetLen, hzero]

/-- A chunk's bytes are as many as its length says. -/
theorem memRead_chunk_length {chunk k n : Nat} {src : List Byte} (h : src.length = n) :
    (memRead src (k * chunk) (min chunk (n - k * chunk))).length = min chunk (n - k * chunk) := by
  rw [memRead, List.length_take, List.length_drop, h]
  omega

/-- What R8 says of the chunk length. -/
theorem pChunk_of_ok {p : Params} (h : p.ok = true) : 1 ≤ p.pChunk ∧ p.pChunk ≤ lenMax := by
  simp only [Params.ok, Bool.and_eq_true, decide_eq_true_eq] at h
  omega

theorem chunkSeq_quiet {p : Params} (c : SpiConn) {q : Packet} {r : List Byte} {k : Nat} (hq : packetError q = none)
    (hr : r.length = q.r.length) (hk : p.ok = true → k * p.pChunk < packetLen q) :
    ∀ i ∈ chunkSeq c p.pChunk q r k, QuietCmd p i := by
  have hemitted := chunkSel_emitted c (hasR q)
  obtain ⟨hcommand, hclock, hlisted⟩ := ofShift_command
    (transferSel true (hasR q) (writeFall c) (readFall c) c.lsbf false) (chunkLen p.pChunk q k)
    (memRead (chunkSrc q r) (k * p.pChunk) (chunkLen p.pChunk q k))
  have hshift : QuietCmd p _ := ⟨hcommand, hlisted hemitted, hclock, fun hok => by
    obtain ⟨hpos, hmax⟩ := pChunk_of_ok hok
    have hlt := hk hok
    have hlen : (memRead (chunkSrc q r) (k * p.pChunk) (chunkLen p.pChunk q k)).length = chunkLen p.pChunk q k :=
      memRead_chunk_length (chunkSrc_length hq hr)
    refine (Instr.ofShift_spec (ShiftSel.wf_iff.mpr ⟨Bool.or_true _, ?_, ?_, hlen⟩)).2.1
    · simp only [chunkLen]
      omega
    · exact (Nat.min_le_left _ _).trans hmax⟩
  unfold chunkSeq
  generalize hasR q = reads at hshift ⊢
  cases reads with
  | true => exact List.forall_mem_cons.mpr ⟨hshift, by simp [QuietCmd.sendImmediate]⟩
  | false => exact List.forall_mem_cons.mpr ⟨hshift, nofun⟩

theorem ceilDiv_pos_lt {n chunk k : Nat} (h : k < ceilDiv n chunk) : k * chunk < n := by
  rw [ceilDiv] at h
  rcases Nat.eq_zero_or_pos chunk with rfl | hpos
  · simp at h
  · have := (Nat.le_div_iff_mul_le hpos).mp h
    rw [Nat.succ_mul] at this
    omega

/-! ### The checks before I/O raise no transport error (R143, R144) -/

theorem checkBits_class {bits : Nat} {e : Err} (h : checkBits bits = some e) : e.class ≠ .transport := by
  unfold checkBits at h
  split_ifs at h <;> cases h <;> exact nofun

theorem pinCheck_class {p : Params} {t : Ste} {g : GroupId} {i : Fin 8} {e : Err} (h : pinCheck p t g i = some e) :
    e.class ≠ .transport := by
  unfold pinCheck at h
  split_ifs at h <;> cases h <;> exact nofun

theorem decomposeMode_class {mode : Nat} {e : Err} (h : decomposeMode mode = .error e) : e.class ≠ .transport := by
  unfold decomposeMode at h
  split_ifs at h <;> cases h <;> exact nofun

theorem spiCheck_class {p : Params} {t : Ste} {f mode bits : Nat} {e : Err} (h : spiCheck p t f mode bits = .error e) :
    e.class ≠ .transport := by
  unfold spiCheck at h
  dsimp only at h
  split at h
  next hbits => cases h; exact checkBits_class hbits
  next =>
    split at h
    · cases h; exact nofun
    · split at h
      next hmode => cases h; exact decomposeMode_class hmode
      next => split_ifs at h; cases h; exact nofun

theorem packetError_class {p : Packet} {e : Err} (h : packetError p = some e) : e.class ≠ .transport := by
  unfold packetError at h
  split at h
  · cases h; exact nofun
  · split at h
    next hbits => cases h; exact checkBits_class hbits
    next => split_ifs at h <;> cases h <;> exact nofun

theorem packetsError_class {ps : List Packet} {e : Err} (h : packetsError ps = some e) : e.class ≠ .transport := by
  induction ps with
  | nil => cases h
  | cons p ps ih =>
    unfold packetsError at h
    split at h
    next hp => cases h; exact packetError_class hp
    next => exact ih h

theorem packetsError_none {ps : List Packet} (h : packetsError ps = none) : ∀ p ∈ ps, packetError p = none := by
  induction ps with
  | nil => exact nofun
  | cons p ps ih =>
    unfold packetsError at h
    split at h
    next => cases h
    next hp => exact List.forall_mem_cons.mpr ⟨hp, ih h⟩

/-! ### The read buffers -/

theorem memWrite_length (buf : List Byte) (i : Nat) (v : List Byte) : (memWrite buf i v).length = buf.length := by
  simp only [memWrite, List.length_append, List.length_take, List.length_drop]
  omega

/-- The lengths of the read buffers. -/
def State.bufLens (s : State) : List Nat := s.bufs.map List.length

theorem State.writeBuf_bufLens (s : State) (j i : Nat) (v : List Byte) : (s.writeBuf j i v).bufLens = s.bufLens := by
  simp only [State.bufLens, State.writeBuf_bufs, List.map_set, memWrite_length, State.buf]
  refine List.ext_getElem? fun k => ?_
  rw [List.getElem?_set]
  split
  next heq =>
    subst heq
    split
    next hlt =>
      rw [List.length_map] at hlt
      simp [hlt]
    next hge => exact (List.getElem?_eq_none (Nat.not_lt.mp hge)).symm
  next => rfl

theorem emitSamples_bufs (bs : List Byte) (s : State) : (emitSamples bs s).state.bufs = s.bufs := by
  unfold emitSamples
  split <;> rfl

theorem emitCmds_bufs (cs : List Instr) (s : State) : (emitCmds cs s).state.bufs = s.bufs := by
  unfold emitCmds
  split
  · exact emitSamples_bufs _ s
  · split <;> rfl

theorem rd_bufs (n : Nat) (s : State) : (rd n s).state.bufs = s.bufs := by
  unfold rd
  split <;> rfl

theorem Res.state_eq {α : Type} {x : Res α} {a : α} {t : State} (h : x = .ok a t) : x.state = t := by rw [h]; rfl

theorem Res.bind_bufLens {α β : Type} {s : State} {x : Res α} {f : α → State → Res β} (hx : x.state.bufLens = s.bufLens)
    (hf : ∀ a t, (f a t).state.bufLens = State.bufLens t) : (x.bind f).state.bufLens = s.bufLens := by
  cases x with
  | ok a t => exact (hf a t).trans hx
  | err e t => exact hx

theorem readChunk_bufLens (p : Packet) (j k : Nat) (s : State) : (readChunk p j k s).state.bufLens = s.bufLens := by
  unfold readChunk
  split
  · exact Res.bind_bufLens (congrArg (List.map List.length) (rd_bufs _ s)) fun x t => t.writeBuf_bufLens _ _ _
  · rfl

theorem emitChunk_bufLens (c : SpiConn) (p : Packet) (j k : Nat) (head : List Instr) (s : State) :
    (emitChunk c p j k head s).state.bufLens = s.bufLens := congrArg (List.map List.length) (emitCmds_bufs _ s)

theorem txChunks_bufLens (c : SpiConn) (p : Packet) (j count k : Nat) (s : State) :
    (txChunks c p j count k s).state.bufLens = s.bufLens := by
  induction count generalizing k s with
  | zero => rfl
  | succ count ih =>
    exact Res.bind_bufLens (emitChunk_bufLens ..) fun _ t => Res.bind_bufLens (readChunk_bufLens ..) fun _ t => ih _ t

theorem emitTrailer_bufLens (c : SpiConn) (s : State) : (emitTrailer c s).state.bufLens = s.bufLens := by
  unfold emitTrailer
  split
  · rfl
  · exact congrArg (List.map List.length) (emitCmds_bufs _ s)

/-- Sending a packet keeps the lengths of the read buffers. -/
theorem sendPacket_bufLens (c : SpiConn) (p : Packet) (j : Nat) (s : State) :
    (sendPacket c p j s).state.bufLens = s.bufLens := by
  unfold sendPacket
  split
  · exact Res.bind_bufLens (emitChunk_bufLens ..) fun _ t => Res.bind_bufLens (txChunks_bufLens ..) fun _ t =>
      Res.bind_bufLens (readChunk_bufLens ..) fun _ t => emitTrailer_bufLens c t
  · refine Res.bind_bufLens (congrArg (List.map List.length) (emitSamples_bufs _ s)) fun _ t =>
      Res.bind_bufLens (congrArg (List.map List.length) (rd_bufs _ t)) fun _ u => ?_
    rw [Res.state_ok]
    split
    · exact u.writeBuf_bufLens _ _ _
    · rfl

theorem State.buf_length (s : State) (j : Nat) : (s.buf j).length = s.bufLens.getD j 0 := by
  simp only [State.buf, State.bufLens, List.getD_eq_getElem?_getD, List.getElem?_map]
  cases s.bufs[j]? <;> rfl

theorem State.buf_length_of_drop {s : State} {j n : Nat} {ns : List Nat} (h : s.bufLens.drop j = n :: ns) :
    (s.buf j).length = n := by
  have hj : s.bufLens[j]? = some n := by
    rw [← Nat.add_zero j, ← List.getElem?_drop, h]
    rfl
  rw [State.buf_length, List.getD_eq_getElem?_getD, hj]
  rfl

theorem bbData_length {p : Packet} (h : packetError p = none) : (bbData p).length = packetLen p := by
  obtain ⟨-, hw, -⟩ := packetError_none h
  unfold bbData
  split
  next hcase => exact hw hcase
  next => exact List.length_replicate

/-! ### The walk -/

/-- The operation goes on in a state that `R` reaches from `s`, or raises its error in one that `E` does. -/
def Res.Within {α : Type} (R : State → State → Prop) (E : Err → State → State → Prop) (s : State) : Res α → Prop
  | .ok _ t => R s t
  | .err e t => E e s t

/-- Relations the I/O of an open device keeps. `T` says which clock targets are meant, by personality. -/
structure Walk (T : Chip → Rat → Prop) (R : State → State → Prop) (E : Err → State → State → Prop) : Prop where
  refl : ∀ s, R s s
  trans : ∀ {s t u}, R s t → R t u → R s u
  transErr : ∀ {s t u e}, R s t → E e t u → E e s u
  /-- an error that is no event's is raised where the operation stands -/
  stop : ∀ {s t e}, e.class ≠ .transport → R s t → E e s t
  cfg : ∀ {s t}, R s t → t.cfg = s.cfg
  writeBuf : ∀ s j i v, R s (State.writeBuf s j i v)
  rd : ∀ n s, (rd n s).Within R E s
  /-- on CMD: a write outside CLOCK_SELECT, and CLOCK_SELECT -/
  cmds : ∀ cs (s : State), s.cfg.chip = .cmd → (∀ i ∈ cs, QuietCmd s.cfg i) → (emitCmds cs s).Within R E s
  clock : ∀ f (s : State), s.cfg.chip = .cmd → T .cmd f → (clockSelect f s).Within R E s
  /-- on BB: samples, a group set, and the clock step of a connect -/
  samples : ∀ bs (s : State), s.cfg.chip = .bb → QuietBytes bs → (emitSamples bs s).Within R E s
  groupSet : ∀ val dir (s : State), s.cfg.chip = .bb → (bbGroupSet val dir s).Within R E s
  rate : ∀ c (s : State), s.cfg.chip = .bb → T .bb (hz c.freq) → (connectRate c s).Within R E s

namespace Walk

variable {T : Chip → Rat → Prop} {R : State → State → Prop} {E : Err → State → State → Prop} (W : Walk T R E)
include W

/-- What is done before an operation is done before what it does. -/
theorem after {α : Type} {s t : State} {x : Res α} (h : R s t) (hx : x.Within R E t) : x.Within R E s := by
  cases x with
  | ok a u => exact W.trans h hx
  | err e u => exact W.transErr h hx

/-- Sequencing: what the first operation answers is known to the second. -/
theorem bind {α β : Type} {s : State} {x : Res α} {f : α → State → Res β} (hx : x.Within R E s)
    (hf : ∀ a t, x = .ok a t → R s t → (f a t).Within R E t) : (x.bind f).Within R E s := by
  cases x with
  | err e t => exact hx
  | ok a t => exact W.after hx (hf a t rfl hx)

theorem ok {α : Type} (a : α) (s : State) : (Res.ok a s).Within R E s := W.refl s

theorem err {α : Type} {e : Err} (s : State) (h : e.class ≠ .transport) : (Res.err e s : Res α).Within R E s :=
  W.stop h (W.refl s)

theorem reply {α : Type} {s : State} {x : Res α} (hx : x.Within R E s) (f : α → State → Reply) :
    (x.reply f).Within R E s := W.bind hx fun _ _ _ _ => W.ok _ _

theorem chip {s t : State} {k : Chip} (h : R s t) (hc : s.cfg.chip = k) : t.cfg.chip = k := by rw [W.cfg h, hc]

/-! #### GPIO -/

theorem gpioSet (g : GroupId) (val dir : Byte) (s : State) : (Machine.groupSet g val dir s).Within R E s := by
  unfold Machine.groupSet
  split
  next hc =>
    cases g
    · exact W.cmds _ s hc (by simp [QuietCmd.setBitsLow])
    · exact W.cmds _ s hc (by simp [QuietCmd.setBitsHigh])
  next hc => exact W.groupSet val dir s hc

theorem gpioGet (g : GroupId) (s : State) : (groupRead g s).Within R E s := by
  unfold groupRead
  refine W.bind ?_ fun _ t _ _ => W.bind (W.rd 1 t) fun _ _ _ _ => W.ok _ _
  split
  next hc =>
    have hread : ∀ i ∈ [Instr.readBitsLow, .readBitsHigh, .sendImmediate], QuietCmd s.cfg i := by
      simp only [List.forall_mem_cons]
      exact ⟨⟨rfl, rfl, rfl, fun _ => rfl⟩, ⟨rfl, rfl, rfl, fun _ => rfl⟩, .sendImmediate, nofun⟩
    cases g <;> exact W.cmds _ s hc fun i hi => hread i (by simp at hi ⊢; tauto)
  next hc => exact W.samples _ s hc (quietBytes_of_length (bs := [s.ste.grpD.val]) (Nat.succ_ne_succ_iff.mpr nofun))

theorem onPin {g : GroupId} {i : Fin 8} {body : State → Res Reply} {s : State}
    (h : pinCheck s.cfg s.ste g i = none → (body s).Within R E s) : (Machine.onPin g i body s).Within R E s := by
  unfold Machine.onPin
  split
  next he => exact W.err s (pinCheck_class he)
  next hnone => exact h hnone

/-! #### I²C -/

theorem onCmd {body : State → Res Reply} {s : State} (h : s.cfg.chip = .cmd → (body s).Within R E s) :
    (Machine.onCmd body s).Within R E s := by
  unfold Machine.onCmd
  split
  next hc => exact h hc
  next => exact W.err s nofun

theorem withI2c {body : I2cBus → State → Res Reply} {s : State}
    (h : ∀ b, s.ste.i2c = some b → (body b s).Within R E s) : (Machine.withI2c body s).Within R E s := by
  unfold Machine.withI2c
  split
  next => exact W.err s nofun
  next b hb => exact h b hb

/-- The last step of an open is the claim. -/
theorem i2cOpen (pull : Pull) {s : State} (hc : s.cfg.chip = .cmd) (hT : T .cmd (i2cTarget s.cfg.i2cRate))
    (hclaim : ∀ t u, s.ste.usingSpi = false → R s t → R t u →
      (∃ a, clockSelect (i2cTarget s.cfg.i2cRate) s = .ok a t) →
      R u (u.withSte fun x => { x with i2c := some ⟨s.cfg.i2cRate⟩, usingI2c := true })) :
    (Machine.i2cOpen pull s).Within R E s := by
  unfold Machine.i2cOpen
  split
  · exact W.err s nofun
  · split
    · exact W.err s nofun
    next hfree =>
      have hspi : s.ste.usingSpi = false := (Bool.or_eq_false_iff.mp (Bool.eq_false_iff.mpr hfree)).1
      refine W.bind (W.clock _ s hc hT) fun a t ht hst => ?_
      refine W.bind (W.cmds _ t (W.chip hst hc) (i2cOpenSeq_quiet _)) fun _ u _ htu => ?_
      have hcfg : u.cfg = s.cfg := (W.cfg htu).trans (W.cfg hst)
      rw [hcfg]
      exact hclaim t u hspi hst htu ⟨a, ht⟩

theorem i2cSetSpeed (rate : Nat) {s : State} (hc : s.cfg.chip = .cmd) (hT : T .cmd (i2cTarget rate))
    (hrate : ∀ t, R s t → (∃ a, clockSelect (i2cTarget rate) s = .ok a t) →
      R t (t.withSte fun x => { x with i2c := some ⟨rate⟩ })) :
    (Machine.i2cSetSpeed rate s).Within R E s :=
  W.bind (W.clock _ s hc hT) fun a t ht hst => hrate t hst ⟨a, ht⟩

theorem i2cClose {s : State} (hc : s.cfg.chip = .cmd)
    (hrelease : R s (s.withSte fun t => { t with i2c := none, usingI2c := false })) :
    (Machine.i2cClose s).Within R E s :=
  by
  unfold Machine.i2cClose
  exact W.after hrelease (W.reply (W.cmds _ _ (W.chip hrelease hc) i2cCloseSeq_quiet) _)

theorem i2cStopIdle {s : State} (hc : s.cfg.chip = .cmd) : (Machine.i2cStopIdle s).Within R E s :=
  W.cmds _ s hc (i2cStopIdleSeq_quiet _ _)

theorem i2cWriteByte (b : Byte) {s : State} (hc : s.cfg.chip = .cmd) : (Machine.i2cWriteByte b s).Within R E s :=
  W.bind (W.cmds _ s hc (i2cWbSeq_quiet _ b)) fun _ t _ hst =>
  W.bind (W.rd 1 t) fun _ u _ htu => by
    split
    · exact W.bind (W.i2cStopIdle (W.chip htu (W.chip hst hc))) fun _ v _ _ => W.err v nofun
    · exact W.ok _ u

theorem i2cWriteBytes (bs : List Byte) {s : State} (hc : s.cfg.chip = .cmd) :
    (Machine.i2cWriteBytes bs s).Within R E s := by
  induction bs generalizing s with
  | nil => exact W.ok _ s
  | cons b bs ih => exact W.bind (W.i2cWriteByte b hc) fun _ t _ hst => ih (W.chip hst hc)

theorem i2cReadBytes (count j : Nat) {s : State} (hc : s.cfg.chip = .cmd) :
    (Machine.i2cReadBytes count j s).Within R E s := by
  induction count generalizing j s with
  | zero => exact W.ok _ s
  | succ count ih =>
    exact W.bind (W.cmds _ s hc (i2cRbSeq_quiet _ _)) fun _ t _ hst =>
      W.bind (W.rd 1 t) fun x u _ htu =>
      W.after (W.writeBuf u 0 j x) (ih _ (W.chip (W.writeBuf u 0 j x) (W.chip htu (W.chip hst hc))))

theorem i2cTx (addr : Nat) (w : List Byte) (len : Nat) {s : State} (hc : s.cfg.chip = .cmd) :
    (Machine.i2cTx addr w len s).Within R E s := by
  unfold Machine.i2cTx
  split
  · exact W.err s nofun
  · exact W.bind (W.cmds _ s hc (i2cStartSeq_quiet _ _)) fun _ t _ hst =>
      W.bind (W.i2cWriteBytes _ (W.chip hst hc)) fun _ u _ htu =>
      W.bind (W.i2cReadBytes _ _ (W.chip htu (W.chip hst hc))) fun _ v _ huv =>
      W.bind (W.i2cStopIdle (W.chip huv (W.chip htu (W.chip hst hc)))) fun _ x _ _ => W.ok _ x

/-! #### SPI -/

theorem connectIo (c : SpiConn) {s : State} (hT : T s.cfg.chip (hz c.freq)) : (Machine.connectIo c s).Within R E s := by
  unfold Machine.connectIo
  split
  next hc =>
    refine W.bind ?_ fun _ t _ hst => W.cmds _ t (W.chip hst hc) (connectSeq_quiet _ _)
    unfold connectClock
    split
    · exact W.bind (W.clock _ s hc (hc ▸ hT)) fun _ _ _ _ => W.ok _ _
    · exact W.ok _ s
  next hc => exact W.bind (W.rate c s hc (hc ▸ hT)) fun _ t _ hst => W.groupSet _ _ t (W.chip hst hc)

/-- The last step of a connect is the claim. -/
theorem spiConnect (f mode bits : Nat) {s : State} (hT : ∀ c, spiCheck s.cfg s.ste f mode bits = .ok c → T s.cfg.chip
    (hz c.freq))
    (hclaim : ∀ c t, spiCheck s.cfg s.ste f mode bits = .ok c → R s t → R t (t.withSte (Ste.claimSpi c))) :
    (Machine.spiConnect f mode bits s).Within R E s := by
  unfold Machine.spiConnect
  split
  next he => exact W.err s (spiCheck_class he)
  next c hcheck => exact W.bind (W.connectIo c (hT c hcheck)) fun _ t _ hst => hclaim c t hcheck hst

theorem readChunk (p : Packet) (j k : Nat) (s : State) : (Machine.readChunk p j k s).Within R E s := by
  unfold Machine.readChunk
  split
  · exact W.bind (W.rd _ s) fun _ _ _ _ => W.writeBuf _ _ _ _
  · exact W.ok _ s

/-- The buffer of packet `j` is as long as the caller's (R52). -/
theorem emitChunk {c : SpiConn} {p : Packet} {j k : Nat} {head : List Instr} {s : State} (hc : s.cfg.chip = .cmd)
    (hp : packetError p = none) (hbuf : (s.buf j).length = p.r.length)
    (hk : s.cfg.ok = true → k * s.cfg.pChunk < packetLen p) (hhead : ∀ i ∈ head, QuietCmd s.cfg i) :
    (Machine.emitChunk c p j k head s).Within R E s :=
  W.cmds _ s hc (List.forall_mem_append.mpr ⟨hhead, chunkSeq_quiet c hp hbuf hk⟩)

theorem txChunks {c : SpiConn} {p : Packet} {j count k : Nat} {s : State} (hc : s.cfg.chip = .cmd)
    (hp : packetError p = none) (hbuf : (s.buf j).length = p.r.length)
    (hk : k + count ≤ chunkCount s.cfg.pChunk p) : (Machine.txChunks c p j count k s).Within R E s := by
  induction count generalizing k s with
  | zero => exact W.ok _ s
  | succ count ih =>
    have hlt : k < chunkCount s.cfg.pChunk p := by omega
    refine W.bind (W.emitChunk hc hp hbuf (fun _ => ceilDiv_pos_lt hlt) nofun) fun _ t ht hst => ?_
    refine W.bind (W.readChunk p j _ t) fun _ u hu htu => ih (W.chip htu (W.chip hst hc)) ?_ ?_
    · have hlens : u.bufLens = s.bufLens := by
        rw [← Res.state_eq hu, readChunk_bufLens, ← Res.state_eq ht, emitChunk_bufLens]
      rw [State.buf_length, hlens, ← State.buf_length, hbuf]
    · rw [W.cfg htu, W.cfg hst]
      omega

theorem emitTrailer (c : SpiConn) {s : State} (hc : s.cfg.chip = .cmd) : (Machine.emitTrailer c s).Within R E s := by
  unfold Machine.emitTrailer
  split
  · exact W.ok _ s
  · exact W.cmds _ s hc (spiTrailerSeq_quiet c _)

theorem txPacket {c : SpiConn} {p : Packet} {j : Nat} {s : State} (hc : s.cfg.chip = .cmd) (hp : packetError p = none)
    (hbuf : (s.buf j).length = p.r.length) : (Machine.txPacket c p j s).Within R E s := by
  have hpos := (packetError_none hp).1
  refine W.bind (W.emitChunk hc hp hbuf (fun _ => by omega) (spiHeaderSeq_quiet c _)) fun _ t ht hst => ?_
  have hct := W.chip hst hc
  have hbt : (t.buf j).length = p.r.length := by
    rw [State.buf_length, ← Res.state_eq ht, emitChunk_bufLens, ← State.buf_length, hbuf]
  rcases Nat.eq_zero_or_pos (chunkCount s.cfg.pChunk p) with hzero | hcount
  · rw [hzero]
    refine W.bind (W.ok () t) fun _ u _ htu => W.bind (W.readChunk p j _ u) fun _ v _ huv => ?_
    exact W.emitTrailer c (W.chip huv (W.chip htu hct))
  · refine W.bind (W.txChunks hct hp hbt (by rw [W.cfg hst]; omega)) fun _ u _ htu => ?_
    exact W.bind (W.readChunk p j _ u) fun _ v _ huv => W.emitTrailer c (W.chip huv (W.chip htu hct))

theorem bbPacket {c : SpiConn} {p : Packet} {j : Nat} {s : State} (hc : s.cfg.chip = .bb) (hp : packetError p = none) :
    (Machine.bbPacket c p j s).Within R E s := by
  have hquiet : QuietBytes (bbFrameOf c s.ste.grpD p) := quietBytes_of_length (by
    have hpos := bbData_length hp
    have := (packetError_none hp).1
    rw [bbFrameOf_length]
    omega)
  refine W.bind (W.samples _ s hc hquiet) fun _ t _ _ => W.bind (W.rd _ t) fun _ u _ _ => ?_
  show R _ (if _ then _ else _)
  split
  · exact W.writeBuf u _ _ _
  · exact W.refl u

theorem sendPacket {c : SpiConn} {p : Packet} {j : Nat} {s : State} (hp : packetError p = none)
    (hbuf : (s.buf j).length = p.r.length) : (Machine.sendPacket c p j s).Within R E s := by
  unfold Machine.sendPacket
  split
  next hc => exact W.txPacket hc hp hbuf
  next hc => exact W.bbPacket hc hp

/-- From index `j` on, the read buffers are those of the packets to come. -/
theorem sendPackets {c : SpiConn} {ps : List Packet} {j : Nat} {s : State} (hp : ∀ p ∈ ps, packetError p = none)
    (hbufs : s.bufLens.drop j = ps.map fun p => p.r.length) : (Machine.sendPackets c j ps s).Within R E s := by
  induction ps generalizing j s with
  | nil => exact W.ok _ s
  | cons p ps ih =>
    obtain ⟨hp, hps⟩ := List.forall_mem_cons.mp hp
    have hbuf : (s.buf j).length = p.r.length := s.buf_length_of_drop hbufs
    refine W.bind (W.sendPacket hp hbuf) fun _ t ht _ => ih hps ?_
    rw [← Res.state_eq ht, sendPacket_bufLens, ← List.drop_drop, hbufs]
    rfl

theorem spiTxPackets {pkts : List Packet} {s : State} (hbufs : s.bufs = pkts.map (·.r)) :
    (Machine.spiTxPackets pkts s).Within R E s := by
  unfold Machine.spiTxPackets
  split
  · exact W.err s nofun
  next c _ =>
    split
    next he => exact W.err s (packetsError_class he)
    next hnone =>
      refine W.sendPackets (packetsError_none hnone) ?_
      rw [List.drop_zero, State.bufLens, hbufs, List.map_map]
      rfl

end Walk

end Sys2Proof.Machine
end

section
/-! PROOF. Every request ends with one result, and what it adds to the trace is what the draws give (R12, R143, R146). `s.Did evs t`
says that the events `evs` lead from `s` to `t`; each logical event is one such event, and a request is a run of them with one
result at its end. -/

namespace Sys2Proof.Machine

/-- The draws give `evs`, and from `s` to `t` just these were added to the trace; the results, the parameters, the calls and
the bench are as before. -/
structure State.Did (s : State) (evs : List Event) (t : State) : Prop where
  trace : t.trace = s.trace ++ evs
  env : t.env = s.env.after evs
  gives : s.gives evs
  cfg : t.cfg = s.cfg
  calls : t.calls = s.calls
  bench : t.bench = s.bench
  results : t.results = s.results

theorem State.Did.refl (s : State) : s.Did [] s :=
  ⟨(List.append_nil _).symm, (Env.after_nil _).symm, rfl, rfl, rfl, rfl, rfl⟩

theorem State.Did.trans {s t u : State} {xs ys : List Event} (h : s.Did xs t) (k : t.Did ys u) : s.Did (xs ++ ys) u where
  trace := by rw [k.trace, h.trace, List.append_assoc]
  env := by rw [k.env, h.env, Env.after_append]
  gives := by
    have hy := k.gives
    rw [State.gives, h.env, h.cfg] at hy
    exact (Env.gives_append _ _ _ _).mpr ⟨h.gives, hy⟩
  cfg := k.cfg.trans h.cfg
  calls := k.calls.trans h.calls
  bench := k.bench.trans h.bench
  results := k.results.trans h.results

theorem State.Did.withSte {s t : State} {evs : List Event} (h : s.Did evs t) (f : Ste → Ste) : s.Did evs (t.withSte f) :=
  ⟨h.trace, h.env, h.gives, h.cfg, h.calls, h.bench, h.results⟩

theorem State.Did.withBridge {s t : State} {evs : List Event} (h : s.Did evs t) (f : Bridge → Bridge) :
    s.Did evs (t.withBridge f) := ⟨h.trace, h.env, h.gives, h.cfg, h.calls, h.bench, h.results⟩

/-- Some events lead from `s` to `t`. -/
def State.Runs (s t : State) : Prop := ∃ evs, s.Did evs t

theorem State.Runs.refl (s : State) : s.Runs s := ⟨[], .refl s⟩

theorem State.Runs.trans {s t u : State} (h : s.Runs t) (k : t.Runs u) : s.Runs u := by
  obtain ⟨xs, hx⟩ := h
  obtain ⟨ys, hy⟩ := k
  exact ⟨xs ++ ys, hx.trans hy⟩

theorem State.Runs.withSte {s t : State} (h : s.Runs t) (f : Ste → Ste) : s.Runs (t.withSte f) := by
  obtain ⟨evs, hevs⟩ := h
  exact ⟨evs, hevs.withSte f⟩

theorem State.Runs.withBridge {s t : State} (h : s.Runs t) (f : Bridge → Bridge) : s.Runs (t.withBridge f) := by
  obtain ⟨evs, hevs⟩ := h
  exact ⟨evs, hevs.withBridge f⟩

theorem State.Runs.ok_withSte {α : Type} {s t : State} (h : s.Runs t) {a : α} {f : Ste → Ste} :
    s.Runs (Res.ok a (t.withSte f)).state := h.withSte f

theorem State.Runs.err_withSte {α : Type} {s t : State} (h : s.Runs t) {e : Err} {f : Ste → Ste} :
    s.Runs (Res.err e (t.withSte f) : Res α).state := h.withSte f

/-! ### Each logical event is one event (R84) -/

theorem State.wrote_did (s : State) (bs : List Byte) : s.Did [.wr bs (s.wrOut bs).n (s.wrOut bs).ok] (s.wrote bs) :=
  ⟨rfl, rfl, by simp [State.gives, Env.gives, State.wrOut], rfl, rfl, rfl, rfl⟩

theorem State.didRead_did (s : State) (n : Nat) : s.Did [.rd n (s.rdOut n).got (s.rdOut n).status] (s.didRead n) :=
  ⟨rfl, rfl, by simp [State.gives, Env.gives, State.rdOut], rfl, rfl, rfl, rfl⟩

theorem emitSamples_event (bs : List Byte) (s : State) :
    s.Did [.wr bs (s.wrOut bs).n (s.wrOut bs).ok] (emitSamples bs s).state := by
  have hdid := s.wrote_did bs
  unfold emitSamples
  split
  · exact (hdid.withSte _).withBridge _
  · exact (hdid.withSte _).withBridge _

theorem emitCmds_event (cs : List Instr) (s : State) :
    s.Did [.wr (encodeAll cs) (s.wrOut (encodeAll cs)).n (s.wrOut (encodeAll cs)).ok] (emitCmds cs s).state := by
  have hdid := s.wrote_did (encodeAll cs)
  unfold emitCmds
  split
  · exact emitSamples_event _ s
  · split
    · exact (hdid.withSte _).withBridge _
    · exact (hdid.withSte _).withBridge _

theorem rd_event (n : Nat) (s : State) : s.Did [.rd n (s.rdOut n).got (s.rdOut n).status] (rd n s).state := by
  have hdid := s.didRead_did n
  unfold rd
  split <;> exact hdid

theorem flush_event (s : State) : s.Did [.flush s.flOut.dropped s.flOut.ok] (flush s).state := by
  have hdid : ∀ b, s.Did [.flush s.flOut.dropped s.flOut.ok]
      { s with env := s.env.nextFlush.2, trace := s.trace ++ [.flush s.flOut.dropped s.flOut.ok], bridge := b } := fun b =>
    ⟨rfl, rfl, by simp [State.gives, Env.gives, State.flOut], rfl, rfl, rfl, rfl⟩
  unfold flush
  dsimp only
  split <;> exact hdid _

theorem ctrl_event (q : CtrlReq) (s : State) : s.Did [.ctrl q s.env.nextCtrl.1] (ctrl q s).state := by
  have hdid : s.Did [.ctrl q s.env.nextCtrl.1]
      { s with env := s.env.nextCtrl.2, trace := s.trace ++ [.ctrl q s.env.nextCtrl.1] } :=
    ⟨rfl, rfl, by simp [State.gives, Env.gives], rfl, rfl, rfl, rfl⟩
  unfold ctrl
  dsimp only
  split
  · exact (hdid.withSte _).withBridge _
  · exact hdid.withBridge _

/-! ### Sequencing -/

theorem Res.bind_runs {α β : Type} {s : State} {x : Res α} {f : α → State → Res β} (hx : s.Runs x.state)
    (hf : ∀ a (t : State), t.Runs (f a t).state) : s.Runs (x.bind f).state := by
  cases x with
  | ok a t => exact State.Runs.trans hx (hf a t)
  | err e t => exact hx

theorem Res.within_runs {α : Type} {s : State} {x : Res α} :
    x.Within State.Runs (fun _ => State.Runs) s ↔ s.Runs x.state := by
  cases x <;> exact Iff.rfl

theorem emitCmds_runs (cs : List Instr) (s : State) : s.Runs (emitCmds cs s).state := ⟨_, emitCmds_event cs s⟩
theorem emitSamples_runs (bs : List Byte) (s : State) : s.Runs (emitSamples bs s).state := ⟨_, emitSamples_event bs s⟩
theorem rd_runs (n : Nat) (s : State) : s.Runs (rd n s).state := ⟨_, rd_event n s⟩
theorem ctrl_runs (q : CtrlReq) (s : State) : s.Runs (ctrl q s).state := ⟨_, ctrl_event q s⟩
theorem flush_runs (s : State) : s.Runs (flush s).state := ⟨_, flush_event s⟩

theorem clockSelect_runs (f : Rat) (s : State) : s.Runs (clockSelect f s).state := by
  unfold clockSelect
  split
  · exact .refl s
  next low d _ =>
    have hw := emitCmds_runs (clockSeq low d) s
    split
    next t hx => rw [hx] at hw; exact State.Runs.ok_withSte hw
    next e t hx => rw [hx] at hw; exact State.Runs.err_withSte hw

theorem connectRate_runs (c : SpiConn) (s : State) : s.Runs (connectRate c s).state := by
  have hq := ctrl_runs (.setRate (2 * c.freq)) s
  unfold connectRate
  split
  · split
    next t hx => rw [hx] at hq; exact State.Runs.ok_withSte hq
    next e t hx => rw [hx] at hq; exact State.Runs.err_withSte hq
  · exact .refl s

theorem bbGroupSet_runs (val dir : Byte) (s : State) : s.Runs (bbGroupSet val dir s).state := by
  have hdir : s.Runs (bbDirection dir s).state := by
    unfold bbDirection
    split
    · exact ctrl_runs _ s
    · exact .refl s
  exact Res.bind_runs hdir fun _ t => Res.bind_runs (emitSamples_runs _ t) fun _ t =>
    Res.bind_runs (rd_runs 1 t) fun _ t => (State.Runs.refl t).ok_withSte

/-- All I/O is a run of events. -/
theorem walk_runs : Walk (fun _ _ => True) State.Runs fun _ => State.Runs where
  refl := .refl
  trans := .trans
  transErr := .trans
  stop := fun _ h => h
  cfg := fun ⟨_, h⟩ => h.cfg
  writeBuf := fun s _ _ _ => ⟨[], (State.Did.refl s).trace, (State.Did.refl s).env, rfl, rfl, rfl, rfl, rfl⟩
  rd := fun n s => Res.within_runs.mpr (rd_runs n s)
  cmds := fun cs s _ _ => Res.within_runs.mpr (emitCmds_runs cs s)
  clock := fun f s _ _ => Res.within_runs.mpr (clockSelect_runs f s)
  samples := fun bs s _ _ => Res.within_runs.mpr (emitSamples_runs bs s)
  groupSet := fun val dir s _ => Res.within_runs.mpr (bbGroupSet_runs val dir s)
  rate := fun c s _ _ => Res.within_runs.mpr (connectRate_runs c s)

/-! ### Opening the device -/

theorem verifyMode_runs (s : State) : s.Runs (verifyMode s).state := by
  have hprobe : ∀ i x (t : State), t.Runs (verifyProbe i x t).state := fun i x t =>
    Res.bind_runs (emitCmds_runs _ t) fun _ t => Res.bind_runs (rd_runs 2 t) fun _ t => by
      split <;> exact .refl t
  exact Res.bind_runs (hprobe _ _ s) fun _ t => Res.bind_runs (hprobe _ _ t) fun _ t => (State.Runs.refl t).withBridge _

theorem attempt_runs (first : Bool) (s : State) : s.Runs (attempt first s).state := by
  have hfast : ∀ t : State, t.Runs (fastPath t).state := fun t =>
    Res.bind_runs (ctrl_runs _ t) fun _ t => Res.bind_runs (ctrl_runs _ t) fun _ t =>
      Res.bind_runs (ctrl_runs _ t) fun _ t => Res.bind_runs (flush_runs t) fun _ t => verifyMode_runs t
  cases first with
  | true => exact hfast s
  | false =>
    have hreset : s.Runs (resetAttempt s).state := Res.bind_runs (ctrl_runs _ s) fun _ t => by
      rw [Res.ignore_state]
      exact flush_runs t
    exact Res.bind_runs hreset fun _ t => hfast t

theorem openFinal_runs (s : State) : s.Runs (openFinal s).state :=
  Res.bind_runs (emitCmds_runs _ s) fun _ t => (State.Runs.refl t).withSte _

theorem Res.orFailed_runs {s : State} {x : Res Unit} (h : s.Runs x.state) : s.Runs x.orFailed.state := by
  cases x with
  | ok a t => exact h
  | err e t => exact State.Runs.withSte h _

theorem devOpen_runs (s : State) : s.Runs (devOpen s).state := by
  unfold devOpen
  split
  · exact .refl s
  · split
    · have hfirst := attempt_runs true s
      unfold openCmd
      split
      next t ht =>
        rw [ht] at hfirst
        exact State.Runs.trans hfirst (Res.orFailed_runs (openFinal_runs t))
      next e t ht =>
        rw [ht] at hfirst
        exact State.Runs.trans hfirst
          (Res.orFailed_runs (Res.bind_runs (attempt_runs false t) fun _ t => openFinal_runs t))
    · exact Res.orFailed_runs <| Res.bind_runs (ctrl_runs _ s) fun _ t => Res.bind_runs (ctrl_runs _ t) fun _ t =>
        Res.bind_runs (ctrl_runs _ t) fun _ t =>
          Res.bind_runs (by rw [Res.ignore_state]; exact flush_runs t) fun _ t =>
            State.Runs.withBridge (t := t.withSte (Ste.openDone .bb)) ((State.Runs.refl t).withSte _) fun b => { b with rate := none }

/-! ### The end of a request -/

/-- From `s` to `t` there were some events and then one result. -/
def State.RunsToResult (s t : State) : Prop := ∃ u r, s.Runs u ∧ t.results = u.results ++ [r] ∧ t.trace = u.trace
  ∧ t.cfg = u.cfg ∧ t.calls = u.calls ∧ t.bench = u.bench ∧ t.env = u.env

theorem finish_runs {s : State} (g : GroupId) {x : Res Reply} (h : s.Runs x.state) : s.RunsToResult (finish g x) := by
  cases x with
  | ok v t => exact ⟨t, ⟨none, v⟩, h, rfl, rfl, rfl, rfl, rfl, rfl⟩
  | err e t =>
    obtain ⟨b, hraise, -, -⟩ := t.raise_spec g e
    rw [finish_err, hraise]
    exact ⟨t, _, h, rfl, rfl, rfl, rfl, rfl, rfl⟩

theorem finishOpen_runs {s : State} {x : Res Unit} (h : s.Runs x.state) : s.RunsToResult (finishOpen x) := by
  cases x with
  | ok _ t => exact ⟨t, _, h, rfl, rfl, rfl, rfl, rfl, rfl⟩
  | err e t => exact ⟨t, _, h, rfl, rfl, rfl, rfl, rfl, rfl⟩

/-- `u` is `s` with the request's buffers loaded. -/
theorem request_runs {g : GroupId} {body : State → Res Reply} {s u : State} (hu : s.Runs u)
    (h : (body u).Within State.Runs (fun _ => State.Runs) u) : ∃ t, request g body u = .next t ∧ s.RunsToResult t := by
  have hopen : u.Runs (whenOpen body u).state := by
    unfold whenOpen
    split
    · exact Res.within_runs.mp h
    · exact .refl u
  exact ⟨_, rfl, finish_runs g (State.Runs.trans hu hopen)⟩

theorem State.loadBufs_runs (s : State) (rs : List (List Byte)) : s.Runs (s.loadBufs rs) :=
  ⟨[], (State.Did.refl s).trace, (State.Did.refl s).env, rfl, rfl, rfl, rfl, rfl⟩

theorem exec_request_runs {i : Instr} (hi : i.isRequest = true) (s : State) :
    ∃ t, exec i s = .next t ∧ s.RunsToResult t := by
  have W := walk_runs
  have claim : ∀ {s t : State} (f : Ste → Ste), s.Runs t → t.Runs (t.withSte f) := fun f _ => (State.Runs.refl _).withSte f
  cases i with
  | devOpen => exact ⟨_, rfl, finishOpen_runs (devOpen_runs s)⟩
  | devClose =>
    refine ⟨_, rfl, finish_runs _ ?_⟩
    unfold devClose
    split
    · exact .refl s
    · exact (State.Runs.refl s).ok_withSte
  | spiConnect f mode bits => exact request_runs (.refl s) (W.spiConnect f mode bits (fun _ _ => trivial) fun _ _ _ h => claim _ h)
  | spiTx w r => exact request_runs (s.loadBufs_runs [r]) (W.reply (W.spiTxPackets (pkts := [txPacketOf w r]) rfl) _)
  | spiTxPackets pkts => exact request_runs (s.loadBufs_runs _) (W.reply (W.spiTxPackets rfl) _)
  | spiClose =>
    refine request_runs (.refl s) (Res.within_runs.mpr ?_)
    unfold spiClose
    split
    · exact .refl s
    · exact (State.Runs.refl s).ok_withSte
  | i2cOpen pull =>
    exact request_runs (.refl s) (W.onCmd fun hc => W.i2cOpen pull hc trivial fun _ _ _ _ h _ => claim _ h)
  | i2cSetSpeed rate =>
    exact request_runs (.refl s) (W.onCmd fun hc => W.withI2c fun _ _ => W.i2cSetSpeed rate hc trivial fun _ h _ => claim _ h)
  | i2cTx addr w r => exact request_runs (s.loadBufs_runs [r]) (W.onCmd fun hc => W.withI2c fun _ _ => W.i2cTx addr w _ hc)
  | i2cClose =>
    exact request_runs (.refl s)
      (W.onCmd fun hc => W.withI2c fun _ _ => W.i2cClose hc ((State.Runs.refl s).withSte _))
  | gpioOut g n level => exact request_runs (.refl s) (W.onPin fun _ => W.reply (W.gpioSet g _ _ s) _)
  | gpioIn g n => exact request_runs (.refl s) (W.onPin fun _ => W.reply (W.gpioSet g _ _ s) _)
  | gpioRead g n => exact request_runs (.refl s) (W.onPin fun _ => W.reply (W.gpioGet g s) _)
  | _ => cases hi

/-- Settles O51: a request is a run of events with one result at its end. -/
theorem oneResultEach : Obligations.OneResultEach := by
  intro i s hi
  obtain ⟨t, hexec, u, r, ⟨evs, hdid⟩, hres, htrace, hcfg, hcalls, hbench, henv⟩ := exec_request_runs hi s
  exact ⟨t, r, evs, hexec, hres.trans (by rw [hdid.results]), htrace.trans hdid.trace, hcfg.trans hdid.cfg,
    hcalls.trans hdid.calls, hbench.trans hdid.bench, henv.trans hdid.env, hdid.gives⟩

end Sys2Proof.Machine
end

section
/-! PROOF. What the bridge does with the commands R69 lists, and what each logical event has done when it answered: the laws
that say what an event does when the draws give it, read backwards. -/

namespace Sys2Proof.Machine

/-! ### The listed commands in the bridge (R60 to R68) -/

/-- The opcode of a data shift that is listed is in R69's list. -/
theorem emittedSels_of_listed {i : Instr} {sel : ShiftSel} {n : Nat} {p : List Byte} (hi : i.shift? = some (sel, n, p))
    (hl : i.listed = true) : emittedSels.contains sel = true := by
  cases i with
  | dataShift => cases hi; exact hl
  | shiftBytesOut10 | shiftBytesOut11 | shiftBytesOut18 | shiftBytesOut19 | shiftBytesIn | shiftBytesInout31
  | shiftBytesInout34 | shiftBytesInout39 | shiftBytesInout3C | shiftBitsIn | shiftBitsOut =>
    cases hi
    decide
  | _ => cases hi

/-- A listed data shift shifts its bits out and queues its responses, and that is all. -/
theorem Bridge.command_shift {i : Instr} {sel : ShiftSel} {n : Nat} {p : List Byte} (hi : i.shift? = some (sel, n, p))
    (hl : emittedSels.contains sel = true) (b : Bridge) :
    b.command i = { b with wire := b.wire ++ shiftOutBits sel n p, queue := b.queue ++ shiftResponses sel n } := by
  simp only [Bridge.command, hi, Bridge.shift, hl, if_true]

theorem Bridge.command_plain {i : Instr} (hi : i.shift? = none) (b : Bridge) : b.command i = b.plain i := by
  simp only [Bridge.command, hi]

/-- What a listed command never changes, and the clock, which only a clock command does. -/
theorem Bridge.command_keeps {i : Instr} (hi : i.isCommand = true) (hl : i.listed = true) (b : Bridge) :
    (b.command i).aligned = b.aligned ∧ (b.command i).rate = b.rate
      ∧ (setsClock i = false → (b.command i).lowBase = b.lowBase ∧ (b.command i).divisor = b.divisor) := by
  cases hs : i.shift? with
  | some shift =>
    obtain ⟨sel, n, p⟩ := shift
    rw [Bridge.command_shift hs (emittedSels_of_listed hs hl)]
    exact ⟨rfl, rfl, fun _ => ⟨rfl, rfl⟩⟩
  | none =>
    have hplain : i.isPlain = true := by simpa [Instr.isCommand, hs] using hi
    rw [Bridge.command_plain hs]
    cases i with
    | setBitsLow | readBitsLow | setBitsHigh | readBitsHigh | sendImmediate | clk3PhaseOn | clk3PhaseOff | driveZeroOnly
    | probe1 | probe2 => exact ⟨rfl, rfl, fun _ => ⟨rfl, rfl⟩⟩
    | setDivisor | div5Off | div5On => exact ⟨rfl, rfl, nofun⟩
    | _ => cases hplain

/-- Commands that are listed and leave the clock alone keep the parse position, the rate and the clock. -/
theorem Bridge.foldl_command_keeps {p : Params} {cs : List Instr} (h : ∀ i ∈ cs, QuietCmd p i) (b : Bridge) :
    (cs.foldl Bridge.command b).aligned = b.aligned ∧ (cs.foldl Bridge.command b).rate = b.rate
      ∧ (cs.foldl Bridge.command b).lowBase = b.lowBase ∧ (cs.foldl Bridge.command b).divisor = b.divisor := by
  induction cs generalizing b with
  | nil => exact ⟨rfl, rfl, rfl, rfl⟩
  | cons i cs ih =>
    obtain ⟨hi, hcs⟩ := List.forall_mem_cons.mp h
    obtain ⟨ha, hr, hclk⟩ := Bridge.command_keeps hi.isCommand hi.listed b
    obtain ⟨hl, hd⟩ := hclk hi.clock
    obtain ⟨ha', hr', hl', hd'⟩ := ih hcs (b.command i)
    exact ⟨ha'.trans ha, hr'.trans hr, hl'.trans hl, hd'.trans hd⟩

/-! ### What an answered event has done -/

theorem emitCmds_ok {cs : List Instr} {s t : State} {a : Unit} (hc : s.cfg.chip = .cmd) (h : emitCmds cs s = .ok a t) :
    s.gives [.sent (encodeAll cs)]
      ∧ t = s.went [.sent (encodeAll cs)] (trackSets cs s.ste) (Bridge.feed s.cfg s.ste.mux cs s.bridge) s.bufs := by
  have hgives : s.gives [.sent (encodeAll cs)] := by
    simp only [emitCmds, hc] at h
    split at h
    next hok =>
      have hn := (usbWriteAll_spec s.cfg.xferMax s.env.nextWr.1 (encodeAll cs)).2 hok
      have hok' : (usbWriteAll s.cfg.xferMax s.env.nextWr.1 (encodeAll cs)).ok = true := hok
      simp [State.gives, Env.gives, hn, hok']
    next => cases h
  rw [emitCmds_sent hc rfl hgives] at h
  cases h
  exact ⟨hgives, rfl⟩

theorem emitCmds_err_went {cs : List Instr} {s t : State} {e : Err} (hc : s.cfg.chip = .cmd) (h : emitCmds cs s = .err e t) :
    ∃ n, e = .transport (.write n) ∧ s.gives [.wr (encodeAll cs) n false]
      ∧ t = s.went [.wr (encodeAll cs) n false] (trackFails cs s.ste) (Bridge.broken s.cfg s.ste.mux cs s.bridge) s.bufs := by
  have hgives : s.gives [.wr (encodeAll cs) (s.wrOut (encodeAll cs)).n false] := by
    simp only [emitCmds, hc] at h
    split at h
    next => cases h
    next hfail =>
      have hfail' : (usbWriteAll s.cfg.xferMax s.env.nextWr.1 (encodeAll cs)).ok = false := Bool.eq_false_iff.mpr hfail
      simp [State.gives, Env.gives, State.wrOut, hfail']
  rw [emitCmds_fails hc rfl hgives] at h
  cases h
  exact ⟨_, rfl, hgives, rfl⟩

theorem emitSamples_ok {bs : List Byte} {s t : State} {a : Unit} (h : emitSamples bs s = .ok a t) :
    s.gives [.sent bs]
      ∧ t = s.went [.sent bs] (trackSamples bs s.ste) (Bridge.feedSamples s.ste.mux bs s.bridge) s.bufs := by
  have hgives : s.gives [.sent bs] := by
    simp only [emitSamples] at h
    split at h
    next hok =>
      have hn := (usbWriteAll_spec s.cfg.xferMax s.env.nextWr.1 bs).2 hok
      have hok' : (usbWriteAll s.cfg.xferMax s.env.nextWr.1 bs).ok = true := hok
      simp [State.gives, Env.gives, hn, hok']
    next => cases h
  rw [emitSamples_sent hgives] at h
  cases h
  exact ⟨hgives, rfl⟩

theorem emitSamples_err_went {bs : List Byte} {s t : State} {e : Err} (h : emitSamples bs s = .err e t) :
    ∃ n, e = .transport (.write n) ∧ s.gives [.wr bs n false]
      ∧ t = s.went [.wr bs n false] (s.ste.setIndet .d true) s.bridge.brokenSamples s.bufs := by
  have hgives : s.gives [.wr bs (s.wrOut bs).n false] := by
    simp only [emitSamples] at h
    split at h
    next => cases h
    next hfail =>
      have hfail' : (usbWriteAll s.cfg.xferMax s.env.nextWr.1 bs).ok = false := Bool.eq_false_iff.mpr hfail
      simp [State.gives, Env.gives, State.wrOut, hfail']
  rw [emitSamples_fails hgives] at h
  cases h
  exact ⟨_, rfl, hgives, rfl⟩

theorem rd_ok {n : Nat} {s t : State} {x : List Byte} (h : rd n s = .ok x t) :
    s.gives [.rd n x .ok] ∧ x.length = n ∧ t = s.went [.rd n x .ok] s.ste (s.bridge.consume n) s.bufs := by
  have hgives : s.gives [.rd n x .ok] := by
    simp only [rd] at h
    split at h
    next hok =>
      cases h
      have hout : usbReadAll s.cfg.raChunk s.env.nextRd.1.tail s.env.nextRd.1.turns n = ⟨(s.rdOut n).got, .ok⟩ := by
        rw [← hok]; rfl
      simp [State.gives, Env.gives, hout]
    next => cases h
    next => cases h
  have hlen := State.gives_rd_length hgives
  rw [rd_got hgives, hlen] at h
  cases h
  exact ⟨hgives, hlen, rfl⟩

theorem rd_err_went {n : Nat} {s t : State} {e : Err} (h : rd n s = .err e t) :
    ∃ x st, (Event.rd n x st).error = some e ∧ s.gives [.rd n x st]
      ∧ t = s.went [.rd n x st] s.ste (s.bridge.consume x.length) s.bufs := by
  have hgives : s.gives [.rd n (s.rdOut n).got (s.rdOut n).status] := (rd_event n s).gives
  have herr : (Event.rd n (s.rdOut n).got (s.rdOut n).status).error = some e := by
    simp only [rd] at h
    split at h
    next => cases h
    next hst => cases h; rw [hst]; rfl
    next hst => cases h; rw [hst]; rfl
  rw [rd_fails hgives herr] at h
  cases h
  exact ⟨_, _, herr, hgives, rfl⟩

theorem ctrl_ok {q : CtrlReq} {s t : State} {a : Unit} (h : ctrl q s = .ok a t) :
    s.gives [.did q] ∧ t = s.went [.did q] (ctrlSte s.cfg.chip q s.ste) (Bridge.control q s.bridge) s.bufs := by
  have hgives : s.gives [.did q] := by
    simp only [ctrl] at h
    split at h
    next hok => simp [State.gives, Env.gives, hok]
    next => cases h
  rw [ctrl_did hgives] at h
  cases h
  exact ⟨hgives, rfl⟩

theorem ctrl_err_went {q : CtrlReq} {s t : State} {e : Err} (h : ctrl q s = .err e t) :
    e = .transport .control ∧ s.gives [.ctrl q false] ∧ t = s.went [.ctrl q false] s.ste (s.bridge.controlLost q) s.bufs := by
  have hgives : s.gives [.ctrl q false] := by
    simp only [ctrl] at h
    split at h
    next => cases h
    next hfail => simpa [State.gives, Env.gives] using hfail
  rw [ctrl_fails hgives] at h
  cases h
  exact ⟨rfl, hgives, rfl⟩

end Sys2Proof.Machine
end

section
/-! PROOF. The clock cache bounds the serial clock (R21, R119). I/O outside CLOCK_SELECT keeps the rates the STE stores and never
raises the bridge's clock (`State.ClockKept`); CLOCK_SELECT that succeeds leaves the bridge at no more than its target; and an
open, which begins and ends with no clock cached, has nothing to keep. -/

namespace Sys2Proof.Machine

/-! ### What keeps the stored rates -/

/-- The stored rates are as before. -/
structure Ste.RatesKept (t u : Ste) : Prop where
  clk : u.clk = t.clk
  spi : u.spi = t.spi
  i2c : u.i2c = t.i2c

theorem Ste.RatesKept.refl (t : Ste) : t.RatesKept t := ⟨rfl, rfl, rfl⟩

theorem Ste.RatesKept.trans {t u v : Ste} (h : t.RatesKept u) (k : u.RatesKept v) : t.RatesKept v :=
  ⟨k.clk.trans h.clk, k.spi.trans h.spi, k.i2c.trans h.i2c⟩

theorem Ste.setIndet_rates (t : Ste) (g : GroupId) (b : Bool) : t.RatesKept (t.setIndet g b) := by
  cases g <;> exact ⟨rfl, rfl, rfl⟩

theorem trackSet_rates (t : Ste) (i : Instr) : t.RatesKept (trackSet t i) := by
  unfold trackSet
  split <;> exact ⟨rfl, rfl, rfl⟩

theorem trackFail_rates (t : Ste) (i : Instr) : t.RatesKept (trackFail t i) := by
  unfold trackFail
  split
  · exact t.setIndet_rates _ _
  · exact t.setIndet_rates _ _
  · exact .refl t

theorem Ste.foldl_rates {f : Ste → Instr → Ste} (hf : ∀ (t : Ste) i, t.RatesKept (f t i)) (cs : List Instr) (t : Ste) :
    t.RatesKept (cs.foldl f t) := by
  induction cs generalizing t with
  | nil => exact .refl t
  | cons i cs ih => exact (hf t i).trans (ih _)

theorem trackSamples_rates (bs : List Byte) (t : Ste) : t.RatesKept (trackSamples bs t) := by
  unfold trackSamples
  split <;> exact ⟨rfl, rfl, rfl⟩

theorem ctrlSte_rates (chip : Chip) (q : CtrlReq) (t : Ste) : t.RatesKept (ctrlSte chip q t) := by
  cases q with
  | setBitmode mask mode => cases mode <;> cases chip <;> exact ⟨rfl, rfl, rfl⟩
  | _ => exact ⟨rfl, rfl, rfl⟩

theorem emitSamples_rates (bs : List Byte) (s : State) : s.ste.RatesKept (emitSamples bs s).state.ste := by
  unfold emitSamples
  split
  · exact trackSamples_rates bs s.ste
  · exact s.ste.setIndet_rates .d true

theorem emitCmds_rates (cs : List Instr) (s : State) : s.ste.RatesKept (emitCmds cs s).state.ste := by
  unfold emitCmds
  split
  · exact emitSamples_rates _ s
  · split
    · exact Ste.foldl_rates trackSet_rates cs s.ste
    · exact Ste.foldl_rates trackFail_rates cs s.ste

theorem rd_rates (n : Nat) (s : State) : s.ste.RatesKept (rd n s).state.ste := by
  unfold rd
  split <;> exact .refl _

theorem ctrl_rates (q : CtrlReq) (s : State) : s.ste.RatesKept (ctrl q s).state.ste := by
  unfold ctrl
  dsimp only
  split
  · exact ctrlSte_rates _ q s.ste
  · exact .refl _

/-! ### I/O that raises no clock -/

/-- From `s` to `t` the device and the stored rates are as before, the serial clock is no faster, and on BB the sample rate is
the same. -/
structure State.ClockKept (s t : State) : Prop where
  cfg : t.cfg = s.cfg
  dev : t.ste.dev = s.ste.dev
  rates : s.ste.RatesKept t.ste
  clock : s.cfg.chip = .cmd → t.bridge.clock s.cfg ≤ s.bridge.clock s.cfg
  rate : s.cfg.chip = .bb → t.bridge.rate = s.bridge.rate

theorem State.ClockKept.refl (s : State) : s.ClockKept s := ⟨rfl, rfl, .refl _, fun _ => le_rfl, fun _ => rfl⟩

theorem State.ClockKept.trans {s t u : State} (h : s.ClockKept t) (k : t.ClockKept u) : s.ClockKept u where
  cfg := k.cfg.trans h.cfg
  dev := k.dev.trans h.dev
  rates := h.rates.trans k.rates
  clock := fun hc => (h.cfg ▸ k.clock (h.cfg ▸ hc)).trans (h.clock hc)
  rate := fun hc => (k.rate (h.cfg ▸ hc)).trans (h.rate hc)

/-- The serial clock of the state the commands stand for is at most the old one, where none of them is a clock command. -/
theorem Bridge.feed_clock_le {p : Params} {mux : Mux} {cs : List Instr} (h : ∀ i ∈ cs, QuietCmd p i) (b : Bridge) :
    (Bridge.feed p mux cs b).clock p ≤ b.clock p := by
  obtain ⟨-, -, hl, hd⟩ := Bridge.foldl_command_keeps h b
  have hgoal : (cs.foldl Bridge.command b).clock p = b.clock p := by simp only [Bridge.clock, hl, hd]
  unfold Bridge.feed
  split
  · exact hgoal.le
  · exact (Bridge.garbled_spec p b _).1.trans hgoal.le

theorem emitCmds_clockKept {cs : List Instr} {s : State} (hc : s.cfg.chip = .cmd) (h : ∀ i ∈ cs, QuietCmd s.cfg i) :
    s.ClockKept (emitCmds cs s).state := by
  have hio := emitCmds_io cs s
  refine ⟨hio.cfg, hio.ste.dev, emitCmds_rates cs s, fun _ => ?_, fun hb => absurd (hc.symm.trans hb) nofun⟩
  cases hx : emitCmds cs s with
  | ok a t =>
    obtain ⟨-, rfl⟩ := emitCmds_ok hc hx
    exact Bridge.feed_clock_le h s.bridge
  | err e t =>
    obtain ⟨n, -, -, rfl⟩ := emitCmds_err_went hc hx
    exact Bridge.broken_clock s.cfg s.ste.mux s.bridge fun i hi => (h i hi).clock

theorem emitSamples_rate (bs : List Byte) (s : State) : (emitSamples bs s).state.bridge.rate = s.bridge.rate := by
  unfold emitSamples
  split
  · show (Bridge.feedSamples s.ste.mux bs s.bridge).rate = s.bridge.rate
    unfold Bridge.feedSamples
    split <;> rfl
  · rfl

theorem emitSamples_clockKept (bs : List Byte) {s : State} (hc : s.cfg.chip = .bb) :
    s.ClockKept (emitSamples bs s).state := by
  have hio := emitSamples_io bs s
  exact ⟨hio.cfg, hio.ste.dev, emitSamples_rates bs s, fun hb => absurd (hc.symm.trans hb) nofun,
    fun _ => emitSamples_rate bs s⟩

theorem rd_clockKept (n : Nat) (s : State) : s.ClockKept (rd n s).state := by
  unfold rd
  split <;> exact ⟨rfl, rfl, .refl _, fun _ => le_rfl, fun _ => rfl⟩

/-- A direction request changes no clock. -/
theorem ctrl_syncBb_clockKept (mask : Byte) (s : State) : s.ClockKept (ctrl (.setBitmode mask .syncBb) s).state := by
  have hclaims := ctrl_claims (.setBitmode mask .syncBb) s
  have hbridge : ∃ b, (ctrl (.setBitmode mask .syncBb) s).state.bridge = b ∧ b.clock s.cfg = s.bridge.clock s.cfg
      ∧ b.rate = s.bridge.rate := by
    unfold ctrl
    dsimp only
    split <;> exact ⟨_, rfl, rfl, rfl⟩
  obtain ⟨b, hb, hclock, hrate⟩ := hbridge
  refine ⟨hclaims.cfg, hclaims.ste.dev, ctrl_rates _ s, fun _ => ?_, fun _ => ?_⟩
  · rw [hb, hclock]
  · rw [hb, hrate]

theorem Res.bind_clockKept {α β : Type} {s : State} {x : Res α} {f : α → State → Res β} (hx : s.ClockKept x.state)
    (hf : ∀ a (t : State), s.ClockKept t → t.ClockKept (f a t).state) : s.ClockKept (x.bind f).state := by
  cases x with
  | ok a t => exact State.ClockKept.trans hx (hf a t hx)
  | err e t => exact hx

theorem bbGroupSet_clockKept (val dir : Byte) {s : State} (hc : s.cfg.chip = .bb) :
    s.ClockKept (bbGroupSet val dir s).state := by
  have hdir : s.ClockKept (bbDirection dir s).state := by
    unfold bbDirection
    split
    · exact ctrl_syncBb_clockKept dir s
    · exact .refl s
  refine Res.bind_clockKept hdir fun _ t hst => ?_
  refine Res.bind_clockKept (emitSamples_clockKept _ (hst.cfg ▸ hc)) fun _ u _ => ?_
  refine Res.bind_clockKept (rd_clockKept 1 u) fun _ v _ => ?_
  exact ⟨rfl, rfl, v.ste.setIndet_rates .d false, fun _ => le_rfl, fun _ => rfl⟩

/-! ### The invariant on an open device -/

/-- The serial clock is bounded by `f` (R21), and on BB is it (R119). -/
def State.clockAt (s : State) (f : Rat) : Prop :=
  match s.cfg.chip with
  | .cmd => s.bridge.clock s.cfg ≤ f
  | .bb => ∃ r, s.bridge.rate = some r ∧ mkRat r 2 = f

/-- The stored rates are as they must be, and the cached clock is a bound. -/
structure State.RatesGood (s : State) : Prop where
  rates : s.ste.ratesOk s.cfg
  bound : ∀ f ∈ s.ste.clk, s.clockAt f

/-- Parameters and device are as before, and good rates stay good. -/
structure State.RatesStay (s t : State) : Prop where
  cfg : t.cfg = s.cfg
  dev : t.ste.dev = s.ste.dev
  good : s.RatesGood → t.RatesGood

theorem State.RatesStay.refl (s : State) : s.RatesStay s := ⟨rfl, rfl, id⟩

theorem State.RatesStay.trans {s t u : State} (h : s.RatesStay t) (k : t.RatesStay u) : s.RatesStay u :=
  ⟨k.cfg.trans h.cfg, k.dev.trans h.dev, fun hs => k.good (h.good hs)⟩

theorem State.ClockKept.clockAt {s t : State} (h : s.ClockKept t) {f : Rat} (hf : s.clockAt f) : t.clockAt f := by
  unfold State.clockAt at hf ⊢
  rw [h.cfg]
  split
  next hc =>
    rw [hc] at hf
    exact (h.clock hc).trans hf
  next hc =>
    rw [hc] at hf
    rw [h.rate hc]
    exact hf

theorem State.ClockKept.stay {s t : State} (h : s.ClockKept t) : s.RatesStay t where
  cfg := h.cfg
  dev := h.dev
  good := fun hs => by
    obtain ⟨hrates, hbound⟩ := hs
    refine ⟨?_, fun f hf => h.clockAt (hbound f (h.rates.clk ▸ hf))⟩
    simpa only [Ste.ratesOk, h.rates.clk, h.rates.spi, h.rates.i2c, h.cfg] using hrates

/-! ### The clock steps -/

/-- The rate a plan selects is at most its target (R89). -/
theorem clockActual_le_of_plan {p : Params} {f : Rat} {low : Bool} {d : Nat} (h : clockPlan p f = some (low, d)) :
    clockActual p low d ≤ f := by
  obtain ⟨hf, hd, -, -⟩ := clockPlan_some h
  rcases Nat.eq_zero_or_pos d with hzero | hpos
  · rw [hzero, clockActual_eq_div, Nat.cast_zero, div_zero]
    exact hf.le
  · exact (clockActual_le_iff hf hpos).mpr hd.ge

/-- The clock commands leave the bridge at no more than the rate they select, whatever it made of them (R21). -/
theorem Bridge.feed_clockSeq (p : Params) (mux : Mux) (low : Bool) (d : Nat) (b : Bridge) :
    (Bridge.feed p mux (clockSeq low d) b).clock p ≤ clockActual p low d := by
  have hgoal : ((clockSeq low d).foldl Bridge.command b).clock p = clockActual p low d := by cases low <;> rfl
  unfold Bridge.feed
  split
  · exact hgoal.le
  · exact (Bridge.garbled_spec p b _).1.trans hgoal.le

/-- A selection that succeeds caches its target, which is positive and a bound. -/
theorem clockSelect_ok_clock {f a : Rat} {s t : State} (hc : s.cfg.chip = .cmd) (h : clockSelect f s = .ok a t) :
    0 < f ∧ t.cfg = s.cfg ∧ t.ste.dev = s.ste.dev ∧ t.ste.clk = some f ∧ t.ste.spi = s.ste.spi ∧ t.ste.i2c = s.ste.i2c
      ∧ t.clockAt f := by
  unfold clockSelect at h
  split at h
  next => cases h
  next low d hplan =>
    split at h
    next u hx =>
      cases h
      have hio := (emitCmds_io (clockSeq low d) s).ok hx
      obtain ⟨-, rfl⟩ := emitCmds_ok hc hx
      refine ⟨(clockPlan_some hplan).1, rfl, hio.ste.dev, rfl, hio.ste.spi, hio.ste.i2c, ?_⟩
      have hle := (Bridge.feed_clockSeq s.cfg s.ste.mux low d s.bridge).trans (clockActual_le_of_plan hplan)
      simpa only [State.clockAt, State.withSte_cfg, State.went_cfg, hc, State.withSte_bridge, State.went_bridge] using hle
    next => cases h

/-- One that fails caches nothing, or has done nothing. -/
theorem clockSelect_err_clock {f : Rat} {e : Err} {s t : State} (h : clockSelect f s = .err e t) :
    t.cfg = s.cfg ∧ t.ste.dev = s.ste.dev ∧ (t = s ∨ t.ste.clk = none) ∧ t.ste.spi = s.ste.spi ∧ t.ste.i2c = s.ste.i2c := by
  unfold clockSelect at h
  split at h
  next =>
    cases h
    exact ⟨rfl, rfl, .inl rfl, rfl, rfl⟩
  next low d _ =>
    split at h
    next => cases h
    next e u hx =>
      cases h
      have hio := (emitCmds_io (clockSeq low d) s).err hx
      exact ⟨hio.cfg, hio.ste.dev, .inr rfl, hio.ste.spi, hio.ste.i2c⟩

/-- A new bound for the same connections keeps the rates good. -/
theorem State.RatesStay.of_clk {s t : State} {f : Rat} (hcfg : t.cfg = s.cfg) (hdev : t.ste.dev = s.ste.dev)
    (hspi : t.ste.spi = s.ste.spi) (hi2c : t.ste.i2c = s.ste.i2c) (hclk : t.ste.clk = some f) (hf : 0 < f)
    (hat : t.clockAt f) : s.RatesStay t := by
  refine ⟨hcfg, hdev, fun ⟨⟨_, hbus, hconn⟩, _⟩ => ⟨⟨?_, hi2c ▸ hbus, by rw [hcfg, hspi]; exact hconn⟩, ?_⟩⟩
  · rw [hclk]
    intro x hx
    cases hx
    exact hf
  · rw [hclk]
    intro x hx
    cases hx
    exact hat

/-- With no clock cached there is nothing to bound. -/
theorem State.RatesStay.of_none {s t : State} (hcfg : t.cfg = s.cfg) (hdev : t.ste.dev = s.ste.dev)
    (hspi : t.ste.spi = s.ste.spi) (hi2c : t.ste.i2c = s.ste.i2c) (hclk : t.ste.clk = none) : s.RatesStay t := by
  refine ⟨hcfg, hdev, fun ⟨⟨_, hbus, hconn⟩, _⟩ => ⟨⟨?_, hi2c ▸ hbus, by rw [hcfg, hspi]; exact hconn⟩, ?_⟩⟩ <;>
    rw [hclk] <;> exact nofun

theorem clockSelect_stay {f : Rat} {s : State} (hc : s.cfg.chip = .cmd) : s.RatesStay (clockSelect f s).state := by
  cases h : clockSelect f s with
  | ok a t =>
    obtain ⟨hf, hcfg, hdev, hclk, hspi, hi2c, hat⟩ := clockSelect_ok_clock hc h
    exact .of_clk hcfg hdev hspi hi2c hclk hf hat
  | err e t =>
    obtain ⟨hcfg, hdev, rfl | hclk, hspi, hi2c⟩ := clockSelect_err_clock h
    · exact .refl _
    · exact .of_none hcfg hdev hspi hi2c hclk

theorem connectRate_stay {c : SpiConn} {s : State} (hc : s.cfg.chip = .bb) (hf : 0 < hz c.freq) :
    s.RatesStay (connectRate c s).state := by
  unfold connectRate
  split
  · split
    next t h =>
      obtain ⟨-, rfl⟩ := ctrl_ok h
      refine .of_clk rfl rfl rfl rfl rfl hf ?_
      have hhalf : mkRat (2 * c.freq : Nat) 2 = hz c.freq := by
        rw [hz, Rat.mkRat_eq_div, Rat.mkRat_eq_div]
        push_cast
        ring
      simp only [State.clockAt, Res.state_ok, State.withSte_cfg, State.went_cfg, hc]
      exact ⟨_, rfl, hhalf⟩
    next e t h =>
      obtain ⟨-, -, rfl⟩ := ctrl_err_went h
      exact .of_none rfl rfl rfl rfl rfl
  · exact .refl s

/-! ### The walk -/

theorem Res.within_stay {α : Type} {s : State} {x : Res α} :
    x.Within State.RatesStay (fun _ => State.RatesStay) s ↔ s.RatesStay x.state := by
  cases x <;> exact Iff.rfl

/-- All I/O keeps the rates good; the clock targets of a connect on BB must be positive. -/
theorem walk_rates : Walk (fun chip f => chip = .bb → 0 < f) State.RatesStay fun _ => State.RatesStay where
  refl := .refl
  trans := .trans
  transErr := .trans
  stop := fun _ h => h
  cfg := fun h => h.cfg
  writeBuf := fun _ _ _ _ => ⟨rfl, rfl, fun h => ⟨h.rates, h.bound⟩⟩
  rd := fun n s => Res.within_stay.mpr (rd_clockKept n s).stay
  cmds := fun _ _ hc h => Res.within_stay.mpr (emitCmds_clockKept hc h).stay
  clock := fun _ _ hc _ => Res.within_stay.mpr (clockSelect_stay hc)
  samples := fun bs _ hc _ => Res.within_stay.mpr (emitSamples_clockKept bs hc).stay
  groupSet := fun val dir _ hc => Res.within_stay.mpr (bbGroupSet_clockKept val dir hc).stay
  rate := fun _ _ hc hT => Res.within_stay.mpr (connectRate_stay hc (hT rfl))

/-! ### The end of a request -/

theorem State.raise_stay (s : State) (g : GroupId) (e : Err) : s.RatesStay (s.raise g e) := by
  have hkept : s.ClockKept (s.raise g e) := by
    unfold State.raise
    split
    · have hste : s.ste.RatesKept (s.ste.setIndet g true) := s.ste.setIndet_rates g true
      have hdev : (s.ste.setIndet g true).dev = s.ste.dev := (s.ste.setIndet_io s.cfg.chip g true).dev
      unfold State.struck
      cases hchip : s.cfg.chip with
      | cmd =>
        exact ⟨rfl, hdev, hste, fun _ => (Bridge.lostPins_clock s.cfg g s.bridge).le, fun _ => Bridge.lostPins_rate g s.bridge⟩
      | bb => exact ⟨rfl, hdev, hste, fun _ => le_rfl, fun _ => rfl⟩
    · exact ⟨rfl, rfl, .refl _, fun _ => le_rfl, fun _ => rfl⟩
  exact hkept.stay

theorem finish_stay {s : State} (g : GroupId) {x : Res Reply} (h : s.RatesStay x.state) : s.RatesStay (finish g x) := by
  cases x with
  | ok v t => exact ⟨h.cfg, h.dev, fun hs => ⟨(h.good hs).rates, (h.good hs).bound⟩⟩
  | err e t => exact State.RatesStay.trans h (t.raise_stay g e)

/-- The invariant of ClockCacheKept, but for the bench. -/
structure State.ClockGood (s : State) : Prop where
  rates : s.ste.ratesOk s.cfg
  bounded : s.clockBounded

theorem State.ClockGood.of_stay {s t : State} (h : s.ClockGood) (hdev : s.ste.dev = .opened) (k : s.RatesStay t) :
    t.ClockGood := by
  obtain ⟨hrates, -, hbound⟩ := h
  obtain ⟨hrates', hbound'⟩ := k.good ⟨hrates, hbound⟩
  exact ⟨hrates', fun hclosed => absurd (k.dev.trans hdev) hclosed, hbound'⟩

/-- `u` is `s` with the request's buffers loaded, which no rate depends on. -/
theorem request_clockGood {g : GroupId} {body : State → Res Reply} {u t : State} (hu : u.ClockGood)
    (h : u.ste.dev = .opened → (body u).Within State.RatesStay (fun _ => State.RatesStay) u)
    (ht : request g body u = .next t) : t.ClockGood := by
  by_cases hdev : u.ste.dev = .opened
  · rw [request_open hdev] at ht
    cases ht
    exact hu.of_stay hdev (finish_stay g (Res.within_stay.mp (h hdev)))
  · rw [request, whenOpen, if_neg hdev, finish_err, State.raise_eq_ran rfl] at ht
    cases ht
    exact ⟨hu.rates, hu.bounded⟩

theorem State.ClockGood.loadBufs {s : State} (h : s.ClockGood) (rs : List (List Byte)) : (s.loadBufs rs).ClockGood :=
  ⟨h.rates, h.bounded⟩

/-! ### Opening and closing the device -/

/-- The parameters and the stored rates are as before. -/
structure State.RatesKept (s t : State) : Prop where
  cfg : t.cfg = s.cfg
  rates : s.ste.RatesKept t.ste

theorem State.RatesKept.refl (s : State) : s.RatesKept s := ⟨rfl, .refl _⟩

theorem State.RatesKept.trans {s t u : State} (h : s.RatesKept t) (k : t.RatesKept u) : s.RatesKept u :=
  ⟨k.cfg.trans h.cfg, h.rates.trans k.rates⟩

theorem Res.bind_rates {α β : Type} {s : State} {x : Res α} {f : α → State → Res β} (hx : s.RatesKept x.state)
    (hf : ∀ a (t : State), t.RatesKept (f a t).state) : s.RatesKept (x.bind f).state := by
  cases x with
  | ok a t => exact State.RatesKept.trans hx (hf a t)
  | err e t => exact hx

theorem emitCmds_ratesKept (cs : List Instr) (s : State) : s.RatesKept (emitCmds cs s).state :=
  ⟨(emitCmds_io cs s).cfg, emitCmds_rates cs s⟩

theorem rd_ratesKept (n : Nat) (s : State) : s.RatesKept (rd n s).state := ⟨(rd_io n s).cfg, rd_rates n s⟩

theorem ctrl_ratesKept (q : CtrlReq) (s : State) : s.RatesKept (ctrl q s).state := ⟨(ctrl_claims q s).cfg, ctrl_rates q s⟩

theorem flush_ratesKept (s : State) : s.RatesKept (flush s).state := ⟨(flush_io s).cfg, by rw [flush_ste]; exact .refl _⟩

theorem attempt_ratesKept (first : Bool) (s : State) : s.RatesKept (attempt first s).state := by
  have hprobe : ∀ i x (t : State), t.RatesKept (verifyProbe i x t).state := fun i x t =>
    Res.bind_rates (emitCmds_ratesKept _ t) fun _ t => Res.bind_rates (rd_ratesKept 2 t) fun _ t => by
      split <;> exact .refl t
  have hverify : ∀ t : State, t.RatesKept (verifyMode t).state := fun t =>
    Res.bind_rates (hprobe _ _ t) fun _ t => Res.bind_rates (hprobe _ _ t) fun _ t => ⟨rfl, .refl _⟩
  have hfast : ∀ t : State, t.RatesKept (fastPath t).state := fun t =>
    Res.bind_rates (ctrl_ratesKept _ t) fun _ t => Res.bind_rates (ctrl_ratesKept _ t) fun _ t =>
      Res.bind_rates (ctrl_ratesKept _ t) fun _ t => Res.bind_rates (flush_ratesKept t) fun _ t => hverify t
  cases first with
  | true => exact hfast s
  | false =>
    have hreset : s.RatesKept (resetAttempt s).state := Res.bind_rates (ctrl_ratesKept _ s) fun _ t => by
      rw [Res.ignore_state]
      exact flush_ratesKept t
    exact Res.bind_rates hreset fun _ t => hfast t

/-- How an open may leave the stored rates: as they were, or all dropped. -/
def State.RatesKeptOrGone (s t : State) : Prop :=
  s.RatesKept t ∨ t.cfg = s.cfg ∧ t.ste.clk = none ∧ t.ste.spi = none ∧ t.ste.i2c = none

theorem State.RatesKept.thenOr {s t u : State} (h : s.RatesKept t) (k : t.RatesKeptOrGone u) : s.RatesKeptOrGone u := by
  obtain k | ⟨hcfg, hgone⟩ := k
  · exact .inl (h.trans k)
  · exact .inr ⟨hcfg.trans h.cfg, hgone⟩

theorem Res.bind_ratesOr {s : State} {x : Res Unit} {f : Unit → State → Res Unit} (hx : s.RatesKept x.state)
    (hf : ∀ a (t : State), t.RatesKeptOrGone (f a t).state) : s.RatesKeptOrGone (x.bind f).state := by
  cases x with
  | ok a t => exact State.RatesKept.thenOr hx (hf a t)
  | err e t => exact .inl hx

theorem Res.orFailed_rates {s : State} {x : Res Unit} (h : s.RatesKeptOrGone x.state) :
    s.RatesKeptOrGone x.orFailed.state := by
  cases x with
  | ok a t => exact h
  | err e t =>
    obtain h | ⟨hcfg, hgone⟩ := h
    · exact .inl ⟨h.cfg, h.rates.clk, h.rates.spi, h.rates.i2c⟩
    · exact .inr ⟨hcfg, hgone⟩

theorem openFinal_rates (s : State) : s.RatesKeptOrGone (openFinal s).state :=
  Res.bind_ratesOr (emitCmds_ratesKept _ s) fun _ _ => .inr ⟨rfl, rfl, rfl, rfl⟩

theorem devOpen_rates (s : State) : s.RatesKeptOrGone (devOpen s).state := by
  unfold devOpen
  split
  · exact .inl (.refl s)
  · split
    · have hfirst := attempt_ratesKept true s
      unfold openCmd
      split
      next t ht =>
        rw [ht] at hfirst
        exact State.RatesKept.thenOr hfirst (Res.orFailed_rates (openFinal_rates t))
      next e t ht =>
        rw [ht] at hfirst
        exact State.RatesKept.thenOr hfirst
          (Res.orFailed_rates (Res.bind_ratesOr (attempt_ratesKept false t) fun _ t => openFinal_rates t))
    · refine Res.orFailed_rates <| Res.bind_ratesOr (ctrl_ratesKept _ s) fun _ t => ?_
      refine Res.bind_ratesOr (ctrl_ratesKept _ t) fun _ t => Res.bind_ratesOr (ctrl_ratesKept _ t) fun _ t => ?_
      exact Res.bind_ratesOr (by rw [Res.ignore_state]; exact flush_ratesKept t) fun _ t => .inr ⟨rfl, rfl, rfl, rfl⟩

/-- A state with no clock cached has nothing to bound. -/
theorem State.ClockGood.of_none {s t : State} (h : s.ClockGood) (hclk : s.ste.clk = none) (k : s.RatesKeptOrGone t) :
    t.ClockGood := by
  obtain ⟨hcfg, hrates⟩ | ⟨hcfg, hnone, hspi, hi2c⟩ := k
  · have hnone : t.ste.clk = none := hrates.clk.trans hclk
    obtain ⟨-, hbus, hconn⟩ := h.rates
    refine ⟨⟨?_, hrates.i2c ▸ hbus, by rw [hcfg, hrates.spi]; exact hconn⟩, fun _ => hnone, ?_⟩ <;>
      rw [hnone] <;> exact nofun
  · refine ⟨⟨?_, ?_, ?_⟩, fun _ => hnone, ?_⟩
    · rw [hnone]; exact nofun
    · rw [hi2c]; exact nofun
    · rw [hspi]; exact nofun
    · rw [hnone]; exact nofun

theorem State.ClockGood.addResult {s : State} (h : s.ClockGood) (r : Result) : (s.addResult r).ClockGood :=
  ⟨h.rates, h.bounded⟩

theorem devOpen_clockGood {s : State} (h : s.ClockGood) : (finishOpen (devOpen s)).ClockGood := by
  have hstate : (devOpen s).state.ClockGood := by
    by_cases hdev : s.ste.dev = .opened
    · rw [devOpen, if_pos hdev]
      exact h
    · exact h.of_none (h.bounded.1 hdev) (devOpen_rates s)
  cases hx : devOpen s with
  | ok a t => rw [hx] at hstate; exact hstate.addResult _
  | err e t => rw [hx] at hstate; exact hstate.addResult _

theorem devClose_clockGood {s : State} (h : s.ClockGood) : (finish .d (devClose s)).ClockGood := by
  by_cases hdev : s.ste.dev = .closed
  · rw [devClose_of_closed hdev, finish_err, State.raise_eq_ran rfl]
    exact ⟨h.rates, h.bounded⟩
  · rw [devClose_of_not_closed hdev]
    exact ⟨⟨nofun, nofun, nofun⟩, fun _ => rfl, nofun⟩

/-! ### Every request -/

/-- A connect that passes its checks is at or above the floor (R100). -/
theorem spiCheck_ok_freq {p : Params} {t : Ste} {f mode bits : Nat} {c : SpiConn} (h : spiCheck p t f mode bits = .ok c) :
    p.fMin ≤ c.freq := by
  unfold spiCheck at h
  dsimp only at h
  split at h
  · cases h
  · split at h
    · cases h
    next hfloor =>
      split at h
      · cases h
      · split at h
        · cases h
        · cases h
          exact Nat.not_lt.mp hfloor

theorem fMin_pos_of_ok {p : Params} (h : p.ok = true) : 1 ≤ p.fMin := by
  simp only [Params.ok, Bool.and_eq_true, decide_eq_true_eq] at h
  omega

theorem hz_pos {n : Nat} (h : 1 ≤ n) : 0 < hz n := by
  rw [hz, Rat.mkRat_eq_div]
  have : (0 : Rat) < n := by exact_mod_cast h
  simpa using this

/-- Only a positive rate has a positive clock target (R123, R124). -/
theorem rate_pos_of_target {rate : Nat} (h : 0 < i2cTarget rate) : 0 < rate := by
  refine Nat.pos_of_ne_zero fun hzero => ?_
  rw [hzero] at h
  exact absurd h (by decide)

theorem State.RatesStay.setI2c {s : State} {rate : Nat} (hrate : 0 < rate) (f : Ste → Ste)
    (hf : (f s.ste).clk = s.ste.clk ∧ (f s.ste).spi = s.ste.spi ∧ (f s.ste).dev = s.ste.dev
      ∧ (f s.ste).i2c = some ⟨rate⟩) : s.RatesStay (s.withSte f) := by
  obtain ⟨hclk, hspi, hdev, hi2c⟩ := hf
  refine ⟨rfl, hdev, fun ⟨⟨hpos, _, hconn⟩, hbound⟩ => ⟨⟨?_, ?_, ?_⟩, ?_⟩⟩
  · rw [State.withSte_ste, hclk]; exact hpos
  · rw [State.withSte_ste, hi2c]
    intro b hb
    cases hb
    exact hrate
  · rw [State.withSte_ste, hspi]; exact hconn
  · rw [State.withSte_ste, hclk]; exact hbound

theorem exec_request_clockGood {i : Instr} (hi : i.isRequest = true) {s t : State} (hok : s.cfg.ok = true)
    (h : s.ClockGood) (ht : exec i s = .next t) : t.ClockGood := by
  have W := walk_rates
  cases i with
  | devOpen => cases ht; exact devOpen_clockGood h
  | devClose => cases ht; exact devClose_clockGood h
  | spiConnect f mode bits =>
    refine request_clockGood h (fun _ => W.spiConnect f mode bits (fun c hcheck _ => ?_) fun c u hcheck hsu => ?_) ht
    · exact hz_pos ((fMin_pos_of_ok hok).trans (spiCheck_ok_freq hcheck))
    · refine ⟨rfl, rfl, fun ⟨⟨hpos, hbus, _⟩, hbound⟩ => ⟨⟨hpos, hbus, fun c' hc' => ?_⟩, hbound⟩⟩
      cases hc'
      rw [State.withSte_cfg, hsu.cfg]
      exact spiCheck_ok_freq hcheck
  | spiTx w r =>
    exact request_clockGood (h.loadBufs [r]) (fun _ => W.reply (W.spiTxPackets (pkts := [txPacketOf w r]) rfl) _) ht
  | spiTxPackets pkts => exact request_clockGood (h.loadBufs _) (fun _ => W.reply (W.spiTxPackets rfl) _) ht
  | spiClose =>
    refine request_clockGood h (fun _ => ?_) ht
    unfold spiClose
    split
    · exact .refl s
    · exact ⟨rfl, rfl, fun ⟨⟨hpos, hbus, _⟩, hbound⟩ => ⟨⟨hpos, hbus, nofun⟩, hbound⟩⟩
  | i2cOpen pull =>
    refine request_clockGood h (fun _ => W.onCmd fun hc => W.i2cOpen pull hc nofun fun u v _ _ _ hclock => ?_) ht
    obtain ⟨a, hclock⟩ := hclock
    exact .setI2c (rate_pos_of_target (clockSelect_ok_clock hc hclock).1) _ ⟨rfl, rfl, rfl, rfl⟩
  | i2cSetSpeed rate =>
    refine request_clockGood h (fun _ => W.onCmd fun hc => W.withI2c fun _ _ =>
      W.i2cSetSpeed rate hc nofun fun u _ hclock => ?_) ht
    obtain ⟨a, hclock⟩ := hclock
    exact .setI2c (rate_pos_of_target (clockSelect_ok_clock hc hclock).1) _ ⟨rfl, rfl, rfl, rfl⟩
  | i2cTx addr w r =>
    exact request_clockGood (h.loadBufs [r]) (fun _ => W.onCmd fun hc => W.withI2c fun _ _ => W.i2cTx addr w _ hc) ht
  | i2cClose =>
    refine request_clockGood h (fun _ => W.onCmd fun hc => W.withI2c fun _ _ => W.i2cClose hc ?_) ht
    exact ⟨rfl, rfl, fun ⟨⟨hpos, _, hconn⟩, hbound⟩ => ⟨⟨hpos, nofun, hconn⟩, hbound⟩⟩
  | gpioOut g n level => exact request_clockGood h (fun _ => W.onPin fun _ => W.reply (W.gpioSet g _ _ s) _) ht
  | gpioIn g n => exact request_clockGood h (fun _ => W.onPin fun _ => W.reply (W.gpioSet g _ _ s) _) ht
  | gpioRead g n => exact request_clockGood h (fun _ => W.onPin fun _ => W.reply (W.gpioGet g s) _) ht
  | _ => cases hi

theorem step_next_ok {s t : State} (h : step s = .next t) : s.cfg.ok = true := by
  unfold step at h
  split at h
  next hok => exact hok
  next => cases h

/-- Settles O56: a step that does not wait runs one host request, and each of them keeps the rates and the bound. -/
theorem clockCacheKept : Obligations.ClockCacheKept := by
  intro s t hhost hrates hbounded hstep
  obtain rfl | ⟨i, calls, -, hreq, hexec⟩ := step_hostOnly_cases hhost hstep
  · exact ⟨hhost, hrates, hbounded⟩
  · obtain ⟨u, hu, hkept⟩ := exec_request_legal hreq { s with calls := calls }
    obtain rfl : t = u := by rw [hexec] at hu; cases hu; rfl
    have hok : s.cfg.ok = true := step_next_ok hstep
    obtain ⟨hrates', hbounded'⟩ := exec_request_clockGood hreq (s := { s with calls := calls }) hok ⟨hrates, hbounded⟩ hexec
    exact ⟨hkept.bench.trans hhost, hrates', hbounded'⟩

end Sys2Proof.Machine
end

section
/-! PROOF. A cache that is not indeterminate reflects the pins (R17, R18). On CMD each listed command does to the cache what it does
to the latches, and a write the bridge does not take as commands loses the parse position; on BB a sample does, and an error
between a direction request and its sample is a transport error, which marks the group. An open ends with both groups
written, or with nothing said of them. -/

namespace Sys2Proof.Machine

/-! ### The two forms of the invariant -/

/-- What `pinsTracked` says on CMD of the two groups of a cache and a bridge. -/
def pinsTrackedCmd (t : Ste) (b : Bridge) : Prop :=
  (t.grpD.indet = false → pinsMatch t.grpD b.latchD b.dirD) ∧ (t.grpC.indet = false → pinsMatch t.grpC b.latchC b.dirC)

theorem State.pinsTracked_cmd {s : State} (hc : s.cfg.chip = .cmd) :
    s.pinsTracked ↔ (s.bridge.aligned = true → pinsTrackedCmd s.ste s.bridge) := by
  unfold State.pinsTracked
  rw [hc]
  rfl

theorem State.pinsTracked_bb {s : State} (hc : s.cfg.chip = .bb) :
    s.pinsTracked ↔ (s.ste.dev = .opened → s.ste.grpD.indet = false →
      s.bridge.latchD &&& s.ste.bbdir = s.ste.grpD.val &&& s.ste.bbdir) := by
  unfold State.pinsTracked
  rw [hc]

/-- The parts of a state the invariant speaks of are as before. -/
structure State.PinsSame (s t : State) : Prop where
  cfg : t.cfg = s.cfg
  dev : t.ste.dev = s.ste.dev
  mux : t.ste.mux = s.ste.mux
  bbdir : t.ste.bbdir = s.ste.bbdir
  grpD : t.ste.grpD = s.ste.grpD
  grpC : t.ste.grpC = s.ste.grpC
  aligned : t.bridge.aligned = s.bridge.aligned
  latchD : t.bridge.latchD = s.bridge.latchD
  dirD : t.bridge.dirD = s.bridge.dirD
  latchC : t.bridge.latchC = s.bridge.latchC
  dirC : t.bridge.dirC = s.bridge.dirC

theorem State.PinsSame.tracked {s t : State} (h : s.PinsSame t) (hs : s.pinsTracked) : t.pinsTracked := by
  cases hc : s.cfg.chip with
  | cmd =>
    rw [State.pinsTracked_cmd hc] at hs
    rw [State.pinsTracked_cmd (h.cfg ▸ hc)]
    unfold pinsTrackedCmd at *
    rwa [h.aligned, h.grpD, h.grpC, h.latchD, h.dirD, h.latchC, h.dirC]
  | bb =>
    rw [State.pinsTracked_bb hc] at hs
    rw [State.pinsTracked_bb (h.cfg ▸ hc)]
    rwa [h.dev, h.bbdir, h.grpD, h.latchD]

/-! ### Commands, in the cache and in the bridge (R62, R97) -/

/-- A listed command does to the cache what it does to the latches. -/
theorem pinsTrackedCmd_command {i : Instr} (hi : i.isCommand = true) (hl : i.listed = true) {t : Ste} {b : Bridge}
    (h : pinsTrackedCmd t b) : pinsTrackedCmd (trackSet t i) (b.command i) := by
  cases hs : i.shift? with
  | some shift =>
    obtain ⟨sel, n, p⟩ := shift
    rw [Bridge.command_shift hs (emittedSels_of_listed hs hl)]
    cases i with
    | dataShift | shiftBytesOut10 | shiftBytesOut11 | shiftBytesOut18 | shiftBytesOut19 | shiftBytesIn | shiftBytesInout31
    | shiftBytesInout34 | shiftBytesInout39 | shiftBytesInout3C | shiftBitsIn | shiftBitsOut => exact h
    | _ => cases hs
  | none =>
    have hplain : i.isPlain = true := by simpa [Instr.isCommand, hs] using hi
    rw [Bridge.command_plain hs]
    cases i with
    | setBitsLow val dir => exact ⟨fun _ => ⟨rfl, rfl⟩, h.2⟩
    | setBitsHigh val dir => exact ⟨h.1, fun _ => ⟨rfl, rfl⟩⟩
    | readBitsLow | readBitsHigh | setDivisor | sendImmediate | div5Off | div5On | clk3PhaseOn | clk3PhaseOff | driveZeroOnly
    | probe1 | probe2 => exact h
    | _ => cases hplain

theorem pinsTrackedCmd_commands {cs : List Instr} (h : ∀ i ∈ cs, i.isCommand = true ∧ i.listed = true) {t : Ste} {b : Bridge}
    (hp : pinsTrackedCmd t b) : pinsTrackedCmd (trackSets cs t) (cs.foldl Bridge.command b) := by
  induction cs generalizing t b with
  | nil => exact hp
  | cons i cs ih =>
    obtain ⟨⟨hi, hl⟩, hcs⟩ := List.forall_mem_cons.mp h
    exact ih hcs (pinsTrackedCmd_command hi hl hp)

theorem Bridge.feed_aligned {p : Params} {mux : Mux} {cs : List Instr} {b : Bridge}
    (h : (Bridge.feed p mux cs b).aligned = true) : b.understands mux := by
  by_contra hnot
  rw [Bridge.feed, if_neg hnot, (Bridge.garbled_spec p b _).2.2] at h
  cases h

/-- A write of listed commands keeps the invariant, accepted or not. -/
theorem emitCmds_tracked {cs : List Instr} {s : State} (hc : s.cfg.chip = .cmd)
    (h : ∀ i ∈ cs, i.isCommand = true ∧ i.listed = true) (hs : s.pinsTracked) : (emitCmds cs s).state.pinsTracked := by
  rw [State.pinsTracked_cmd hc] at hs
  cases hx : emitCmds cs s with
  | ok a t =>
    obtain ⟨-, rfl⟩ := emitCmds_ok hc hx
    refine (State.pinsTracked_cmd (by exact hc)).mpr fun ha => ?_
    have hu := Bridge.feed_aligned ha
    simp only [Res.state_ok, State.went_ste, State.went_bridge, Bridge.feed_ready s.cfg cs hu]
    exact pinsTrackedCmd_commands h (hs hu.2)
  | err e t =>
    obtain ⟨n, -, -, rfl⟩ := emitCmds_err_went hc hx
    exact (State.pinsTracked_cmd (by exact hc)).mpr fun ha => absurd ha Bool.false_ne_true

theorem clockSeq_listed (low : Bool) (d : Nat) : ∀ i ∈ clockSeq low d, i.isCommand = true ∧ i.listed = true := by
  cases low <;> exact List.forall_mem_cons.mpr ⟨⟨rfl, rfl⟩, List.forall_mem_cons.mpr ⟨⟨rfl, rfl⟩, nofun⟩⟩

/-! ### What the I/O of an open device keeps -/

/-- The pins are tracked, and on BB the device takes samples. -/
structure State.PinsGood (s : State) : Prop where
  tracked : s.pinsTracked
  mux : s.cfg.chip = .bb → s.ste.mux = .syncBb

/-- The parameters are as before, and good pins stay good. -/
structure State.PinsStay (s t : State) : Prop where
  cfg : t.cfg = s.cfg
  good : s.PinsGood → t.PinsGood

/-- As far as an error: on BB a transport error marks the group, so nothing need be said of its pins. -/
structure State.PinsStop (e : Err) (s t : State) : Prop where
  cfg : t.cfg = s.cfg
  good : s.PinsGood → (e.class = .transport ∧ s.cfg.chip = .bb ∧ t.ste.mux = .syncBb) ∨ t.PinsGood

theorem State.PinsStay.refl (s : State) : s.PinsStay s := ⟨rfl, id⟩

theorem State.PinsStay.trans {s t u : State} (h : s.PinsStay t) (k : t.PinsStay u) : s.PinsStay u :=
  ⟨k.cfg.trans h.cfg, fun hs => k.good (h.good hs)⟩

theorem State.PinsStay.stop {s t : State} (h : s.PinsStay t) (e : Err) : State.PinsStop e s t :=
  ⟨h.cfg, fun hs => .inr (h.good hs)⟩

theorem State.PinsStay.transStop {s t u : State} {e : Err} (h : s.PinsStay t) (k : State.PinsStop e t u) :
    State.PinsStop e s u := ⟨k.cfg.trans h.cfg, fun hs => h.cfg ▸ k.good (h.good hs)⟩

theorem State.PinsSame.stay {s t : State} (h : s.PinsSame t) : s.PinsStay t :=
  ⟨h.cfg, fun hs => ⟨h.tracked hs.tracked, fun hc => h.mux.trans (hs.mux (h.cfg ▸ hc))⟩⟩

theorem Res.within_pins {α : Type} {s : State} {x : Res α} (h : s.PinsStay x.state) :
    x.Within State.PinsStay State.PinsStop s := by
  cases x with
  | ok a t => exact h
  | err e t => exact State.PinsStay.stop h e

theorem emitCmds_pinsStay {cs : List Instr} {s : State} (hc : s.cfg.chip = .cmd)
    (h : ∀ i ∈ cs, i.isCommand = true ∧ i.listed = true) : s.PinsStay (emitCmds cs s).state := by
  have hio := emitCmds_io cs s
  exact ⟨hio.cfg, fun hs => ⟨emitCmds_tracked hc h hs.tracked, fun hb => absurd ((hio.cfg ▸ hb).symm.trans hc) nofun⟩⟩

theorem clockSelect_pinsStay (f : Rat) {s : State} (hc : s.cfg.chip = .cmd) : s.PinsStay (clockSelect f s).state := by
  unfold clockSelect
  split
  · exact .refl s
  next low d _ =>
    have hw := emitCmds_pinsStay hc (clockSeq_listed low d)
    split
    next t hx =>
      rw [hx] at hw
      exact State.PinsStay.trans hw (State.PinsSame.stay ⟨rfl, rfl, rfl, rfl, rfl, rfl, rfl, rfl, rfl, rfl, rfl⟩)
    next e t hx =>
      rw [hx] at hw
      exact State.PinsStay.trans hw (State.PinsSame.stay ⟨rfl, rfl, rfl, rfl, rfl, rfl, rfl, rfl, rfl, rfl, rfl⟩)

theorem rd_pinsSame (n : Nat) (s : State) : s.PinsSame (rd n s).state := by
  unfold rd
  split <;> exact ⟨rfl, rfl, rfl, rfl, rfl, rfl, rfl, rfl, rfl, rfl, rfl⟩

/-! ### On BB -/

theorem trackSamples_mux (bs : List Byte) (t : Ste) : (trackSamples bs t).mux = t.mux := by
  unfold trackSamples
  split <;> rfl

theorem trackSamples_bbdir (bs : List Byte) (t : Ste) : (trackSamples bs t).bbdir = t.bbdir := by
  unfold trackSamples
  split <;> rfl

/-- Samples that are accepted drive what the cache then holds; samples that are not mark the group. -/
theorem emitSamples_pinsStay (bs : List Byte) {s : State} (hc : s.cfg.chip = .bb) : s.PinsStay (emitSamples bs s).state := by
  have hio := emitSamples_io bs s
  refine ⟨hio.cfg, fun hs => ?_⟩
  have hm := hs.mux hc
  have ht := (State.pinsTracked_bb hc).mp hs.tracked
  cases hx : emitSamples bs s with
  | ok a t =>
    obtain ⟨-, rfl⟩ := emitSamples_ok hx
    refine ⟨(State.pinsTracked_bb (by exact hc)).mpr ?_, fun _ => (trackSamples_mux bs s.ste).trans hm⟩
    simp only [Res.state_ok, State.went_ste, State.went_bridge, trackSamples, Bridge.feedSamples, hm, if_true]
    cases hlast : bs.getLast? with
    | none => exact ht
    | some x => exact fun _ _ => rfl
  | err e t =>
    obtain ⟨n, -, -, rfl⟩ := emitSamples_err_went hx
    exact ⟨(State.pinsTracked_bb (by exact hc)).mpr fun _ hindet => absurd hindet.symm Bool.false_ne_true, fun _ => hm⟩

theorem Res.bind_eq_err {α β : Type} {x : Res α} {f : α → State → Res β} {e : Err} {t : State} :
    x.bind f = .err e t ↔ x = .err e t ∨ ∃ a u, x = .ok a u ∧ f a u = .err e t := by
  cases x <;> simp

/-- The error of an event that failed is a transport error (R143). -/
theorem Event.error_class {ev : Event} {e : Err} (h : ev.error = some e) : e.class = .transport := by
  cases ev with
  | ctrl q ok => cases ok <;> cases h; rfl
  | wr bs n ok => cases ok <;> cases h; rfl
  | rd n got st => cases st <;> cases h <;> rfl
  | flush x ok => cases ok <;> cases h; rfl

theorem bbGroupSet_err_class {val dir : Byte} {s t : State} {e : Err} (h : bbGroupSet val dir s = .err e t) :
    e.class = .transport := by
  obtain h | ⟨_, u, -, h⟩ := Res.bind_eq_err.mp h
  · unfold bbDirection at h
    split at h
    · obtain ⟨rfl, -, -⟩ := ctrl_err_went h
      rfl
    · cases h
  obtain h | ⟨_, v, -, h⟩ := Res.bind_eq_err.mp h
  · obtain ⟨n, rfl, -, -⟩ := emitSamples_err_went h
    rfl
  obtain h | ⟨_, w, -, h⟩ := Res.bind_eq_err.mp h
  · obtain ⟨x, st, herr, -, -⟩ := rd_err_went h
    exact Event.error_class herr
  · cases h

/-- A BB group set that goes through leaves the latch at the value it caches; one that does not has a transport error. -/
theorem bbGroupSet_pins (val dir : Byte) {s : State} (hc : s.cfg.chip = .bb) :
    (bbGroupSet val dir s).Within State.PinsStay State.PinsStop s := by
  have hio := bbGroupSet_io val dir hc
  cases hx : bbGroupSet val dir s with
  | ok a t =>
    rw [hx] at hio
    refine ⟨hio.cfg, fun hs => ⟨?_, fun _ => ?_⟩⟩
    · obtain ⟨_, s₁, h₁, hx⟩ := Res.bind_eq_ok.mp hx
      obtain ⟨_, s₂, h₂, hx⟩ := Res.bind_eq_ok.mp hx
      obtain ⟨_, s₃, h₃, hx⟩ := Res.bind_eq_ok.mp hx
      cases hx
      have hdir := (bbDirection_io dir hc).ok h₁
      have hm₁ : s₁.ste.mux = .syncBb := by
        have := hdir.ste.mux
        rw [hc] at this
        exact this (hs.mux hc)
      obtain ⟨-, rfl⟩ := emitSamples_ok h₂
      obtain ⟨-, -, rfl⟩ := rd_ok h₃
      have hcfg : s₁.cfg.chip = .bb := hdir.cfg ▸ hc
      refine (State.pinsTracked_bb (by exact hcfg)).mpr fun _ _ => ?_
      simp only [State.withSte_bridge, State.went_bridge, State.withSte_ste, State.went_ste, hm₁, Bridge.feedSamples,
        Bridge.consume, if_true, trackSamples, List.getLast?_singleton, Option.getD_some, Ste.setIndet_d]
    · have hmux := hio.ste.mux
      rw [hc] at hmux
      exact hmux (hs.mux hc)
  | err e t =>
    rw [hx] at hio
    refine ⟨hio.cfg, fun hs => .inl ⟨?_, hc, ?_⟩⟩
    · exact bbGroupSet_err_class hx
    · have hmux := hio.ste.mux
      rw [hc] at hmux
      exact hmux (hs.mux hc)

theorem connectRate_pinsStay (c : SpiConn) (s : State) : s.PinsStay (connectRate c s).state := by
  unfold connectRate
  split
  · split
    next t h =>
      obtain ⟨-, rfl⟩ := ctrl_ok h
      exact State.PinsSame.stay ⟨rfl, rfl, rfl, rfl, rfl, rfl, rfl, rfl, rfl, rfl, rfl⟩
    next e t h =>
      obtain ⟨-, -, rfl⟩ := ctrl_err_went h
      exact State.PinsSame.stay ⟨rfl, rfl, rfl, rfl, rfl, rfl, rfl, rfl, rfl, rfl, rfl⟩
  · exact .refl s

/-- All I/O keeps good pins good, up to a transport error on BB. -/
theorem walk_pins : Walk (fun _ _ => True) State.PinsStay State.PinsStop where
  refl := .refl
  trans := .trans
  transErr := fun h k => State.PinsStay.transStop h k
  stop := fun _ h => h.stop _
  cfg := fun h => h.cfg
  writeBuf := fun _ _ _ _ => State.PinsSame.stay ⟨rfl, rfl, rfl, rfl, rfl, rfl, rfl, rfl, rfl, rfl, rfl⟩
  rd := fun n s => Res.within_pins (rd_pinsSame n s).stay
  cmds := fun _ _ hc h => Res.within_pins (emitCmds_pinsStay hc fun i hi => ⟨(h i hi).isCommand, (h i hi).listed⟩)
  clock := fun f _ hc _ => Res.within_pins (clockSelect_pinsStay f hc)
  samples := fun bs _ hc _ => Res.within_pins (emitSamples_pinsStay bs hc)
  groupSet := fun val dir _ hc => bbGroupSet_pins val dir hc
  rate := fun c s _ _ => Res.within_pins (connectRate_pinsStay c s)

/-! ### The end of a request -/

theorem State.raise_of_not_transport {e : Err} (h : e.class ≠ .transport) (s : State) (g : GroupId) :
    s.raise g e = s.addResult (.failed e) := by
  rw [State.raise, if_neg (by simpa [Err.isTransport] using h)]

theorem State.raise_of_transport {e : Err} (h : e.class = .transport) (s : State) (g : GroupId) :
    s.raise g e = (s.struck g).addResult (.failed e) := by
  rw [State.raise, if_pos (by simpa [Err.isTransport] using h)]

theorem State.PinsGood.addResult {s : State} (h : s.PinsGood) (r : Result) : (s.addResult r).PinsGood :=
  ⟨h.tracked, h.mux⟩

/-- A transport error frees the pins of the group it strikes and marks that group; the other group is as it was (R147). -/
theorem State.struck_pinsGood_cmd {s : State} (hc : s.cfg.chip = .cmd) (h : s.PinsGood) (g : GroupId) :
    (s.struck g).PinsGood := by
  refine ⟨(State.pinsTracked_cmd (by exact hc)).mpr fun ha => ?_, fun hb => absurd (hc.symm.trans hb) nofun⟩
  simp only [State.struck, hc, State.withBridge_bridge, State.withSte_bridge, Bridge.lostPins_aligned] at ha
  have hp := (State.pinsTracked_cmd hc).mp h.tracked ha
  simp only [State.struck, hc, State.withBridge_bridge, State.withSte_bridge, State.withBridge_ste, State.withSte_ste]
  cases g with
  | d => exact ⟨fun hindet => absurd hindet.symm Bool.false_ne_true, hp.2⟩
  | c => exact ⟨hp.1, fun hindet => absurd hindet.symm Bool.false_ne_true⟩

/-- On BB the one group is marked, and nothing is said of its pins. -/
theorem State.struck_pinsGood_bb {s : State} (hc : s.cfg.chip = .bb) (hm : s.ste.mux = .syncBb) : (s.struck .d).PinsGood :=
  ⟨(State.pinsTracked_bb (by exact hc)).mpr fun _ hindet => absurd hindet.symm Bool.false_ne_true, fun _ => hm⟩

theorem finish_pinsGood {g : GroupId} {s : State} {x : Res Reply} (hg : s.cfg.chip = .bb → g = .d)
    (h : x.Within State.PinsStay State.PinsStop s) (hs : s.PinsGood) : (finish g x).PinsGood := by
  cases x with
  | ok v t => exact (State.PinsStay.good h hs).addResult _
  | err e t =>
    have hcfg : t.cfg = s.cfg := State.PinsStop.cfg h
    rw [finish_err]
    by_cases he : e.class = .transport
    · rw [State.raise_of_transport he]
      refine State.PinsGood.addResult ?_ _
      obtain ⟨-, hc, hm⟩ | hgood := State.PinsStop.good h hs
      · rw [hg hc]
        exact State.struck_pinsGood_bb (hcfg ▸ hc) hm
      · cases hc : t.cfg.chip with
        | cmd => exact State.struck_pinsGood_cmd hc hgood g
        | bb =>
          rw [hg (hcfg ▸ hc)]
          exact State.struck_pinsGood_bb hc (hgood.mux hc)
    · rw [State.raise_of_not_transport he]
      obtain ⟨ht, -, -⟩ | hgood := State.PinsStop.good h hs
      · exact absurd ht he
      · exact hgood.addResult _

/-- `u` is the state the request began in, with its buffers loaded. -/
theorem request_tracked {g : GroupId} {body : State → Res Reply} {u t : State} (hlegal : u.ste.legal u.cfg.chip)
    (hu : u.pinsTracked) (hg : u.cfg.chip = .bb → g = .d)
    (h : u.ste.dev = .opened → (body u).Within State.PinsStay State.PinsStop u) (ht : request g body u = .next t) :
    t.pinsTracked := by
  by_cases hdev : u.ste.dev = .opened
  · rw [request_open hdev] at ht
    cases ht
    have hgood : u.PinsGood := ⟨hu, fun hc => by rw [hlegal.1 hdev, hc]; rfl⟩
    exact (finish_pinsGood hg (h hdev) hgood).tracked
  · rw [request, whenOpen, if_neg hdev, finish_err, State.raise_eq_ran rfl] at ht
    cases ht
    exact State.PinsSame.tracked ⟨rfl, rfl, rfl, rfl, rfl, rfl, rfl, rfl, rfl, rfl, rfl⟩ hu

/-! ### Opening the device -/

/-- On CMD, tracked pins stay tracked. -/
structure State.TrackedStay (s t : State) : Prop where
  cfg : t.cfg = s.cfg
  tracked : s.cfg.chip = .cmd → s.pinsTracked → t.pinsTracked

theorem State.TrackedStay.trans {s t u : State} (h : s.TrackedStay t) (k : t.TrackedStay u) : s.TrackedStay u :=
  ⟨k.cfg.trans h.cfg, fun hc hs => k.tracked (h.cfg ▸ hc) (h.tracked hc hs)⟩

theorem State.TrackedStay.refl (s : State) : s.TrackedStay s := ⟨rfl, fun _ => id⟩

/-- While the parse position is unknown nothing is said of the pins on CMD. -/
theorem State.TrackedStay.of_lost {s t : State} (hcfg : t.cfg = s.cfg) (h : t.bridge.aligned = false) : s.TrackedStay t :=
  ⟨hcfg, fun hc _ => (State.pinsTracked_cmd (hcfg ▸ hc)).mpr fun ha => absurd (h.symm.trans ha) nofun⟩

/-- The mode a request commands is nothing the invariant speaks of on CMD. -/
theorem State.TrackedStay.of_same {s t : State} (hcfg : t.cfg = s.cfg) (hd : t.ste.grpD = s.ste.grpD)
    (hc : t.ste.grpC = s.ste.grpC) (hb : t.bridge = s.bridge) : s.TrackedStay t := by
  refine ⟨hcfg, fun hchip hs => ?_⟩
  rw [State.pinsTracked_cmd hchip] at hs
  rw [State.pinsTracked_cmd (hcfg ▸ hchip), hb]
  unfold pinsTrackedCmd at *
  rwa [hd, hc]

theorem Res.bind_tracked {α β : Type} {s : State} {x : Res α} {f : α → State → Res β} (hx : s.TrackedStay x.state)
    (hf : ∀ a (t : State), t.TrackedStay (f a t).state) : s.TrackedStay (x.bind f).state := by
  cases x with
  | ok a t => exact State.TrackedStay.trans hx (hf a t)
  | err e t => exact hx

/-- Each control request of an open leaves the pins alone, or loses the parse position. -/
theorem ctrl_trackedStay {q : CtrlReq} {s : State}
    (hq : q = .resetDevice ∨ q = .init ∨ q = .setBitmode 0 .reset ∨ q = .setBitmode 0 .cmdStream) :
    s.TrackedStay (ctrl q s).state := by
  cases hx : ctrl q s with
  | ok a t =>
    obtain ⟨-, rfl⟩ := ctrl_ok hx
    rcases hq with rfl | rfl | rfl | rfl
    · exact .of_lost rfl rfl
    · exact .of_same rfl rfl rfl rfl
    · exact .of_same rfl rfl rfl rfl
    · exact .of_same rfl rfl rfl rfl
  | err e t =>
    obtain ⟨-, -, rfl⟩ := ctrl_err_went hx
    rcases hq with rfl | rfl | rfl | rfl
    · exact .of_lost rfl rfl
    · exact .of_same rfl rfl rfl rfl
    · exact .of_lost rfl rfl
    · exact .of_lost rfl rfl

theorem Bridge.drained_pins (m : Mux) (n : Nat) (ok : Bool) (b : Bridge) :
    (b.drained m n ok).latchD = b.latchD ∧ (b.drained m n ok).dirD = b.dirD ∧ (b.drained m n ok).latchC = b.latchC
      ∧ (b.drained m n ok).dirC = b.dirC := by
  cases ok <;> exact ⟨rfl, rfl, rfl, rfl⟩

theorem flush_pinsSame (s : State) : s.PinsSame (flush s).state := by
  have hpins := Bridge.drained_pins s.ste.mux s.flOut.dropped.length s.flOut.ok s.bridge
  obtain ⟨hld, hdd, hlc, hdc⟩ := hpins
  unfold flush
  dsimp only
  split <;> exact ⟨rfl, rfl, rfl, rfl, rfl, rfl, Bridge.drained_aligned .., hld, hdd, hlc, hdc⟩

theorem State.PinsSame.trackedStay {s t : State} (h : s.PinsSame t) : s.TrackedStay t := ⟨h.cfg, fun _ hs => h.tracked hs⟩

theorem emitCmds_trackedStay {cs : List Instr} (s : State) (h : ∀ i ∈ cs, i.isCommand = true ∧ i.listed = true) :
    s.TrackedStay (emitCmds cs s).state := ⟨(emitCmds_io cs s).cfg, fun hc hs => emitCmds_tracked hc h hs⟩

theorem verifyProbe_trackedStay {i : Instr} (x : Byte) (s : State) (hi : i.isCommand = true ∧ i.listed = true) :
    s.TrackedStay (verifyProbe i x s).state := by
  refine Res.bind_tracked (emitCmds_trackedStay s ?_) fun _ t => ?_
  · exact List.forall_mem_cons.mpr ⟨hi, List.forall_mem_cons.mpr ⟨⟨rfl, rfl⟩, nofun⟩⟩
  · refine Res.bind_tracked (rd_pinsSame 2 t).trackedStay fun _ u => ?_
    split <;> exact .refl u

/-- How far an attempt keeps the pins: up to its error, or until the verification makes the parse position known. -/
def Res.TrackedOrKnown (s : State) : Res Unit → Prop
  | .ok _ t => t.cfg = s.cfg ∧ t.bridge.aligned = true
  | .err _ t => s.TrackedStay t

theorem Res.TrackedOrKnown.bind {α : Type} {s : State} {x : Res α} {f : α → State → Res Unit} (hx : s.TrackedStay x.state)
    (hf : ∀ a (t : State), (f a t).TrackedOrKnown t) : (x.bind f).TrackedOrKnown s := by
  cases x with
  | err e t => exact hx
  | ok a t =>
    have h := hf a t
    rw [Res.bind_ok]
    cases hcase : f a t with
    | ok b u =>
      rw [hcase] at h
      exact ⟨h.1.trans (State.TrackedStay.cfg hx), h.2⟩
    | err e u =>
      rw [hcase] at h
      exact State.TrackedStay.trans hx h

theorem fastPath_trackedOrKnown (s : State) : (fastPath s).TrackedOrKnown s :=
  .bind (ctrl_trackedStay (.inr (.inl rfl))) fun _ _ =>
  .bind (ctrl_trackedStay (.inr (.inr (.inl rfl)))) fun _ _ =>
  .bind (ctrl_trackedStay (.inr (.inr (.inr rfl)))) fun _ t =>
  .bind (flush_pinsSame t).trackedStay fun _ t =>
  .bind (verifyProbe_trackedStay _ t ⟨rfl, rfl⟩) fun _ t =>
  .bind (verifyProbe_trackedStay _ t ⟨rfl, rfl⟩) fun _ _ => ⟨rfl, rfl⟩

theorem attempt_trackedOrKnown (first : Bool) (s : State) : (attempt first s).TrackedOrKnown s := by
  cases first with
  | true => exact fastPath_trackedOrKnown s
  | false =>
    refine .bind ?_ fun _ t => fastPath_trackedOrKnown t
    refine Res.bind_tracked (ctrl_trackedStay (.inl rfl)) fun _ t => ?_
    rw [Res.ignore_state]
    exact (flush_pinsSame t).trackedStay

/-- The final write sets both groups, in the cache and in the bridge. -/
theorem openFinal_tracked {s : State} (hc : s.cfg.chip = .cmd) (hm : s.ste.mux = .cmdStream)
    (ha : s.bridge.aligned = true) : (openFinal s).orFailed.state.pinsTracked := by
  unfold openFinal
  cases hx : emitCmds openFinalSeq s with
  | ok a t =>
    obtain ⟨-, rfl⟩ := emitCmds_ok hc hx
    refine (State.pinsTracked_cmd (by exact hc)).mpr fun _ => ?_
    simp only [Res.bind_ok, Res.orFailed_ok, Res.state_ok, State.withSte_bridge, State.went_bridge, State.withSte_ste,
      Bridge.feed_ready _ _ (show s.bridge.understands s.ste.mux from ⟨hm, ha⟩)]
    exact ⟨fun _ => ⟨rfl, rfl⟩, fun _ => ⟨rfl, rfl⟩⟩
  | err e t =>
    obtain ⟨n, -, -, rfl⟩ := emitCmds_err_went hc hx
    exact (State.pinsTracked_cmd (by exact hc)).mpr fun ha => absurd ha Bool.false_ne_true

theorem openCmd_tracked {s : State} (hc : s.cfg.chip = .cmd) (hs : s.pinsTracked) : (openCmd s).state.pinsTracked := by
  unfold openCmd
  have hfirst := attempt_trackedOrKnown true s
  split
  next t h =>
    rw [h] at hfirst
    exact openFinal_tracked (hfirst.1 ▸ hc) (attempt_ok_mux hc h) hfirst.2
  next e t h =>
    rw [h] at hfirst
    have hct : t.cfg.chip = .cmd := hfirst.cfg ▸ hc
    have ht := hfirst.tracked hc hs
    have hsecond := attempt_trackedOrKnown false t
    cases h' : attempt false t with
    | ok a u =>
      rw [h'] at hsecond
      exact openFinal_tracked (hsecond.1 ▸ hct) (attempt_ok_mux hct h') hsecond.2
    | err e u =>
      rw [h'] at hsecond
      have hu := hsecond.tracked hct ht
      have hfailed : u.TrackedStay (u.withSte Ste.openFailed) := .of_same rfl rfl rfl rfl
      exact hfailed.tracked (hsecond.cfg ▸ hct) hu

/-- On BB the device is open only after a success, and then every pin is an input. -/
theorem openBb_tracked {s : State} (hc : s.cfg.chip = .bb) : (openBb s).state.pinsTracked := by
  have hcfg : (openBb s).state.cfg = s.cfg := (openBb_legal hc).cfg
  refine (State.pinsTracked_bb (hcfg ▸ hc)).mpr fun hdev _ => ?_
  cases hx : openBb s with
  | err e t =>
    rw [hx] at hdev
    unfold openBb Res.orFailed at hx
    split at hx
    · cases hx
    · cases hx
      cases hdev
  | ok a t =>
    unfold openBb Res.orFailed at hx
    split at hx
    next b u h =>
      cases hx
      obtain ⟨_, s₁, -, h⟩ := Res.bind_eq_ok.mp h
      obtain ⟨_, s₂, -, h⟩ := Res.bind_eq_ok.mp h
      obtain ⟨_, s₃, -, h⟩ := Res.bind_eq_ok.mp h
      obtain ⟨_, s₄, -, h⟩ := Res.bind_eq_ok.mp h
      cases h
      exact BitVec.and_zero.trans BitVec.and_zero.symm
    next => cases hx

theorem devOpen_tracked {s : State} (hs : s.pinsTracked) : (devOpen s).state.pinsTracked := by
  unfold devOpen
  split
  · exact hs
  · split
    next hc => exact openCmd_tracked hc hs
    next hc => exact openBb_tracked hc

theorem finishOpen_tracked {x : Res Unit} (h : x.state.pinsTracked) : (finishOpen x).pinsTracked := by
  cases x <;> exact State.PinsSame.tracked ⟨rfl, rfl, rfl, rfl, rfl, rfl, rfl, rfl, rfl, rfl, rfl⟩ h

/-- A device that was closed has nothing said of its pins (R27). -/
theorem devClose_tracked {s : State} (hs : s.pinsTracked) : (finish .d (devClose s)).pinsTracked := by
  by_cases hdev : s.ste.dev = .closed
  · rw [devClose_of_closed hdev, finish_err, State.raise_eq_ran rfl]
    exact State.PinsSame.tracked ⟨rfl, rfl, rfl, rfl, rfl, rfl, rfl, rfl, rfl, rfl, rfl⟩ hs
  · rw [devClose_of_not_closed hdev, finish_ok]
    cases hc : s.cfg.chip with
    | cmd =>
      exact (State.pinsTracked_cmd (by exact hc)).mpr fun _ =>
        ⟨fun h => absurd h.symm Bool.false_ne_true, fun h => absurd h.symm Bool.false_ne_true⟩
    | bb => exact (State.pinsTracked_bb (by exact hc)).mpr fun _ h => absurd h.symm Bool.false_ne_true

/-! ### Every request -/

theorem State.withSte_pinsStay (s : State) (f : Ste → Ste)
    (h : (f s.ste).dev = s.ste.dev ∧ (f s.ste).mux = s.ste.mux ∧ (f s.ste).bbdir = s.ste.bbdir
      ∧ (f s.ste).grpD = s.ste.grpD ∧ (f s.ste).grpC = s.ste.grpC) : s.PinsStay (s.withSte f) := by
  obtain ⟨hdev, hmux, hbbdir, hd, hc⟩ := h
  exact State.PinsSame.stay ⟨rfl, hdev, hmux, hbbdir, hd, hc, rfl, rfl, rfl, rfl, rfl⟩

theorem State.loadBufs_tracked {s : State} (h : s.pinsTracked) (rs : List (List Byte)) : (s.loadBufs rs).pinsTracked :=
  State.PinsSame.tracked ⟨rfl, rfl, rfl, rfl, rfl, rfl, rfl, rfl, rfl, rfl, rfl⟩ h

/-- A pin request on group C of a BB device is refused, and touches nothing. -/
theorem onPin_tracked {g : GroupId} {i : Fin 8} {body : State → Res Reply} {s t : State} (hlegal : s.ste.legal s.cfg.chip)
    (hs : s.pinsTracked) (h : (body s).Within State.PinsStay State.PinsStop s) (ht : request g (onPin g i body) s = .next t) :
    t.pinsTracked := by
  by_cases hcase : s.cfg.chip = .bb ∧ g = .c
  · by_cases hdev : s.ste.dev = .opened
    · rw [request_open hdev, onPin, pinCheck, if_pos hcase, finish_err, State.raise_eq_ran rfl] at ht
      cases ht
      exact State.PinsSame.tracked ⟨rfl, rfl, rfl, rfl, rfl, rfl, rfl, rfl, rfl, rfl, rfl⟩ hs
    · rw [request, whenOpen, if_neg hdev, finish_err, State.raise_eq_ran rfl] at ht
      cases ht
      exact State.PinsSame.tracked ⟨rfl, rfl, rfl, rfl, rfl, rfl, rfl, rfl, rfl, rfl, rfl⟩ hs
  · refine request_tracked hlegal hs (fun hc => ?_) (fun _ => walk_pins.onPin fun _ => h) ht
    cases g with
    | d => rfl
    | c => exact absurd ⟨hc, rfl⟩ hcase

theorem exec_request_tracked {i : Instr} (hi : i.isRequest = true) {s t : State} (hlegal : s.ste.legal s.cfg.chip)
    (hs : s.pinsTracked) (ht : exec i s = .next t) : t.pinsTracked := by
  have W := walk_pins
  have D : ∀ {u : State}, u.cfg.chip = .bb → GroupId.d = .d := fun _ => rfl
  cases i with
  | devOpen => cases ht; exact finishOpen_tracked (devOpen_tracked hs)
  | devClose => cases ht; exact devClose_tracked hs
  | spiConnect f mode bits =>
    exact request_tracked hlegal hs D (fun _ => W.spiConnect f mode bits (fun _ _ => trivial) fun c u _ _ =>
      u.withSte_pinsStay (Ste.claimSpi c) ⟨rfl, rfl, rfl, rfl, rfl⟩) ht
  | spiTx w r =>
    exact request_tracked (u := s.loadBufs [r]) hlegal (State.loadBufs_tracked hs _) D
      (fun _ => W.reply (W.spiTxPackets (pkts := [txPacketOf w r]) rfl) _) ht
  | spiTxPackets pkts =>
    exact request_tracked (u := s.loadBufs (pkts.map Packet.r)) hlegal (State.loadBufs_tracked hs _) D
      (fun _ => W.reply (W.spiTxPackets (pkts := pkts) rfl) _) ht
  | spiClose =>
    refine request_tracked hlegal hs D (fun _ => ?_) ht
    unfold spiClose
    split
    · exact W.err s nofun
    · exact s.withSte_pinsStay (fun t => { t with spi := none, usingSpi := false }) ⟨rfl, rfl, rfl, rfl, rfl⟩
  | i2cOpen pull =>
    exact request_tracked hlegal hs D (fun _ => W.onCmd fun hc => W.i2cOpen pull hc trivial fun _ u _ _ _ _ =>
      u.withSte_pinsStay _ ⟨rfl, rfl, rfl, rfl, rfl⟩) ht
  | i2cSetSpeed rate =>
    exact request_tracked hlegal hs D (fun _ => W.onCmd fun hc => W.withI2c fun _ _ => W.i2cSetSpeed rate hc trivial
      fun u _ _ => u.withSte_pinsStay _ ⟨rfl, rfl, rfl, rfl, rfl⟩) ht
  | i2cTx addr w r =>
    exact request_tracked (u := s.loadBufs [r]) hlegal (State.loadBufs_tracked hs _) D
      (fun _ => W.onCmd fun hc => W.withI2c fun _ _ => W.i2cTx addr w _ hc) ht
  | i2cClose =>
    exact request_tracked hlegal hs D (fun _ => W.onCmd fun hc => W.withI2c fun _ _ =>
      W.i2cClose hc (s.withSte_pinsStay _ ⟨rfl, rfl, rfl, rfl, rfl⟩)) ht
  | gpioOut g n level => exact onPin_tracked hlegal hs (W.reply (W.gpioSet g _ _ s) _) ht
  | gpioIn g n => exact onPin_tracked hlegal hs (W.reply (W.gpioSet g _ _ s) _) ht
  | gpioRead g n => exact onPin_tracked hlegal hs (W.reply (W.gpioGet g s) _) ht
  | _ => cases hi

/-- Settles O57: a step that does not wait runs one host request, and each of them keeps the pins tracked. -/
theorem pinsTrackedKept : Obligations.PinsTrackedKept := by
  intro s t hhost hlegal htracked hstep
  obtain ⟨hhost', hlegal'⟩ := legalKept s t hhost hlegal hstep
  refine ⟨hhost', hlegal', ?_⟩
  obtain rfl | ⟨i, calls, -, hreq, hexec⟩ := step_hostOnly_cases hhost hstep
  · exact htracked
  · have hcalls : State.pinsTracked { s with calls := calls } :=
      State.PinsSame.tracked ⟨rfl, rfl, rfl, rfl, rfl, rfl, rfl, rfl, rfl, rfl, rfl⟩ htracked
    exact exec_request_tracked hreq (s := { s with calls := calls }) hlegal hcalls hexec

end Sys2Proof.Machine
end

section
/-! PROOF. What each command sequence of the engines does to the cache and to a bridge that understands commands. A run of
group D sets leaves the last of them; a chunk shifts its bytes out and, if the packet reads, returns what was queued. -/

namespace Sys2Proof

/-- The row of a listed byte shift with a payload carries that payload, and its count is the payload's length. -/
theorem Instr.shift?_ofShift {sel : ShiftSel} (hl : emittedSels.contains sel = true) (hout : sel.out = true)
    (hbits : sel.bits = false) (n : Nat) (p : List Byte) : (Instr.ofShift sel n p).shift? = some (sel, p.length, p) := by
  have hmem : sel ∈ emittedSels := List.contains_iff_mem.mp hl
  simp only [emittedSels, List.mem_cons, List.not_mem_nil, or_false] at hmem
  rcases hmem with rfl | rfl | rfl | rfl | rfl | rfl | rfl | rfl | rfl | rfl | rfl
  case inr.inr.inr.inr.inl | inr.inr.inr.inr.inr.inr.inr.inr.inr.inl => cases hout
  case inr.inr.inr.inr.inr.inr.inr.inr.inr.inr => cases hbits
  all_goals rfl

end Sys2Proof

namespace Sys2Proof.Machine

/-! ### Runs of group D sets -/

/-- Sets of group D, all with the same directions. -/
def setsLow (dir : Byte) (vals : List Byte) : List Instr := vals.map fun v => .setBitsLow v dir

theorem trackSets_append (xs ys : List Instr) (t : Ste) : trackSets (xs ++ ys) t = trackSets ys (trackSets xs t) :=
  List.foldl_append

theorem setsLow_append (dir : Byte) (xs ys : List Byte) : setsLow dir (xs ++ ys) = setsLow dir xs ++ setsLow dir ys :=
  List.map_append

/-- Sets of group D write its cache alone. -/
theorem trackSets_setsLow_grpD (dir : Byte) (vals : List Byte) (t : Ste) :
    ∃ g, trackSets (setsLow dir vals) t = { t with grpD := g } := by
  induction vals generalizing t with
  | nil => exact ⟨t.grpD, rfl⟩
  | cons v vals ih => exact ih _

/-- The cache holds the last set (R97). -/
theorem trackSets_setsLow (dir : Byte) {vals : List Byte} {v : Byte} (h : vals.getLast? = some v) (t : Ste) :
    trackSets (setsLow dir vals) t = { t with grpD := { dir := dir, val := v, indet := false } } := by
  obtain ⟨pre, rfl⟩ := List.getLast?_eq_some_iff.mp h
  obtain ⟨g, hpre⟩ := trackSets_setsLow_grpD dir pre t
  rw [setsLow_append, trackSets_append, hpre]
  rfl

/-- Sets of group D write its latches and directions alone. -/
theorem foldl_setsLow_pins (dir : Byte) (vals : List Byte) (b : Bridge) :
    ∃ x y, (setsLow dir vals).foldl Bridge.command b = { b with latchD := x, dirD := y } := by
  induction vals generalizing b with
  | nil => exact ⟨b.latchD, b.dirD, rfl⟩
  | cons v vals ih => exact ih _

/-- The latches hold the last set (R62). -/
theorem foldl_setsLow (dir : Byte) {vals : List Byte} {v : Byte} (h : vals.getLast? = some v) (b : Bridge) :
    (setsLow dir vals).foldl Bridge.command b = { b with latchD := v, dirD := dir } := by
  obtain ⟨pre, rfl⟩ := List.getLast?_eq_some_iff.mp h
  obtain ⟨x, y, hpre⟩ := foldl_setsLow_pins dir pre b
  rw [setsLow_append, List.foldl_append, hpre]
  rfl

theorem encodeAll_setsLow (dir : Byte) (vals : List Byte) :
    encodeAll (setsLow dir vals) = vals.flatMap fun v => [0x80, v, dir] := by
  rw [encodeAll, setsLow, List.flatMap_map]
  rfl

theorem encodeAll_append (xs ys : List Instr) : encodeAll (xs ++ ys) = encodeAll xs ++ encodeAll ys := List.flatMap_append

theorem spiHeaderSeq_sets (c : SpiConn) (g : Group) :
    spiHeaderSeq c g = setsLow (spiDir c g) (spiIdle c g :: if c.nocs then [] else [spiAssert c g]) := by
  unfold spiHeaderSeq
  cases c.nocs <;> rfl

theorem spiTrailerSeq_sets (c : SpiConn) (g : Group) :
    spiTrailerSeq c g = setsLow (spiDir c g) (if c.nocs then [] else [spiIdle c g]) := by
  unfold spiTrailerSeq
  cases c.nocs <;> rfl

theorem i2cStartSeq_sets (k : Nat) (g : Group) :
    i2cStartSeq k g
      = setsLow (i2cDir g) (List.replicate k (i2cVal g true false) ++ List.replicate k (i2cVal g false false)) := by
  simp only [i2cStartSeq, setsLow, List.map_append, List.map_replicate, i2cSet]

theorem i2cStopSeq_sets (k : Nat) (g : Group) :
    i2cStopSeq k g
      = setsLow (i2cDir g) (List.replicate k (i2cVal g false false) ++ List.replicate k (i2cVal g true false)
          ++ List.replicate k (i2cVal g true true)) := by
  simp only [i2cStopSeq, setsLow, List.map_append, List.map_replicate, i2cSet]

theorem i2cIdleSeq_sets (g : Group) : i2cIdleSeq g = setsLow (i2cDir g) [i2cVal g true true] := rfl

theorem i2cStopIdleSeq_sets (k : Nat) (g : Group) :
    i2cStopSeq k g ++ i2cIdleSeq g
      = setsLow (i2cDir g) (List.replicate k (i2cVal g false false) ++ List.replicate k (i2cVal g true false)
          ++ List.replicate k (i2cVal g true true) ++ [i2cVal g true true]) := by
  rw [i2cStopSeq_sets, i2cIdleSeq_sets, ← setsLow_append]

/-! ### The chunks of a packet (R106) -/

/-- The selectors of a chunk's opcode (R59, R106). -/
abbrev chunkSel (c : SpiConn) (reads : Bool) : ShiftSel := transferSel true reads (writeFall c) (readFall c) c.lsbf false

/-- The bytes of chunk `k`. -/
abbrev chunkData (chunk : Nat) (p : Packet) (r : List Byte) (k : Nat) : List Byte :=
  memRead (chunkSrc p r) (k * chunk) (chunkLen chunk p k)

theorem trackSet_shift {i : Instr} {x : ShiftSel × Nat × List Byte} (h : i.shift? = some x) (t : Ste) :
    trackSet t i = t := by
  cases i with
  | setBitsLow | setBitsHigh => cases h
  | _ => rfl

theorem chunkSeq_shift? (c : SpiConn) (chunk : Nat) (p : Packet) (r : List Byte) (k : Nat) :
    (Instr.ofShift (chunkSel c (hasR p)) (chunkLen chunk p k) (chunkData chunk p r k)).shift?
      = some (chunkSel c (hasR p), (chunkData chunk p r k).length, chunkData chunk p r k) :=
  Instr.shift?_ofShift (chunkSel_emitted c _) rfl rfl _ _

theorem trackSets_chunkSeq (c : SpiConn) (chunk : Nat) (p : Packet) (r : List Byte) (k : Nat) (t : Ste) :
    trackSets (chunkSeq c chunk p r k) t = t := by
  rw [chunkSeq, trackSets, List.foldl_cons, trackSet_shift (chunkSeq_shift? c chunk p r k)]
  cases hasR p <;> rfl

/-- What a chunk leaves in a bridge that understands commands: its bits shifted out, and, if the packet reads, everything
queued returned, its own responses last. -/
def chunkBridge (c : SpiConn) (reads : Bool) (data : List Byte) (b : Bridge) : Bridge :=
  { b with
    wire := b.wire ++ data.flatMap (shiftOrder c.lsbf)
    queue := if reads then [] else b.queue
    sent := if reads then b.sent ++ b.queue ++ List.replicate data.length .data else b.sent }

theorem foldl_chunkSeq (c : SpiConn) (chunk : Nat) (p : Packet) (r : List Byte) (k : Nat) (b : Bridge) :
    (chunkSeq c chunk p r k).foldl Bridge.command b = chunkBridge c (hasR p) (chunkData chunk p r k) b := by
  rw [chunkSeq, List.foldl_cons, Bridge.command_shift (chunkSeq_shift? c chunk p r k) (chunkSel_emitted c _)]
  generalize hasR p = reads
  cases reads with
  | true => exact congrArg (fun x => { chunkBridge c true _ b with sent := x }) (List.append_assoc ..).symm
  | false => exact congrArg (fun x => { chunkBridge c false _ b with queue := x }) (List.append_nil _)

theorem encodeAll_chunkSeq (c : SpiConn) (chunk : Nat) (p : Packet) (r : List Byte) (k : Nat) :
    encodeAll (chunkSeq c chunk p r k)
      = (chunkSel c (hasR p)).opcode :: field16 ((chunkData chunk p r k).length - 1) ++ chunkData chunk p r k
          ++ (if hasR p then [0x87] else []) := by
  rw [chunkSeq, encodeAll, List.flatMap_cons, encode, chunkSeq_shift? c chunk p r k]
  cases hasR p <;> rfl

/-! ### The byte steps of I²C (R127, R128) -/

theorem foldl_i2cWbSeq (g : Group) (x : Byte) (b : Bridge) :
    (i2cWbSeq g x).foldl Bridge.command b
      = { b with
          wire := b.wire ++ shiftOrder false x
          latchD := i2cVal g false true
          dirD := i2cDir g
          sent := b.sent ++ b.queue ++ [.bits 1]
          queue := [] } := by
  have hbits : shiftOutBits sel11 1 [x] = shiftOrder false x := List.append_nil _
  have hlisted : emittedSels.contains sel11 = true ∧ emittedSels.contains sel22 = true := by decide
  simp only [i2cWbSeq, i2cSet, List.foldl_cons, List.foldl_nil, Bridge.command, Instr.shift?, Bridge.shift, hlisted, if_true,
    Bridge.plain, List.length_singleton, hbits]
  simp [shiftResponses, shiftOutBits, sel11, sel22, transferSel]

theorem foldl_i2cRbSeq (g : Group) (last : Bool) (b : Bridge) :
    (i2cRbSeq g last).foldl Bridge.command b
      = { b with
          wire := b.wire ++ [last]
          latchD := i2cVal g false true
          dirD := i2cDir g
          sent := b.sent ++ b.queue ++ [.data]
          queue := [] } := by
  have hbits : shiftOutBits sel13 1 [if last then 0xFF else 0x00] = [last] := by cases last <;> decide
  have hlisted : emittedSels.contains sel13 = true ∧ emittedSels.contains sel20 = true := by decide
  simp only [i2cRbSeq, i2cSet, List.foldl_cons, List.foldl_nil, Bridge.command, Instr.shift?, Bridge.shift, hlisted, if_true,
    Bridge.plain, hbits]
  simp [shiftResponses, shiftOutBits, sel13, sel20, transferSel]

theorem trackSets_i2cWbSeq (g : Group) (x : Byte) (t : Ste) :
    trackSets (i2cWbSeq g x) t = { t with grpD := { dir := i2cDir g, val := i2cVal g false true, indet := false } } := rfl

theorem trackSets_i2cRbSeq (g : Group) (last : Bool) (t : Ste) :
    trackSets (i2cRbSeq g last) t = { t with grpD := { dir := i2cDir g, val := i2cVal g false true, indet := false } } := rfl

/-! ### Clock, phasing and open drain -/

theorem foldl_clockSeq (low : Bool) (d : Nat) (b : Bridge) :
    (clockSeq low d).foldl Bridge.command b = { b with lowBase := low, divisor := d } := by cases low <;> rfl

theorem trackSets_clockSeq (low : Bool) (d : Nat) (t : Ste) : trackSets (clockSeq low d) t = t := by cases low <;> rfl

theorem foldl_connectSeq (c : SpiConn) (g : Group) (b : Bridge) :
    (connectSeq c g).foldl Bridge.command b
      = { b with threePhase := false, odD := 0, odC := 0, latchD := spiIdle c g, dirD := spiDir c g } := rfl

theorem foldl_i2cOpenSeq (g : Group) (b : Bridge) :
    (i2cOpenSeq g).foldl Bridge.command b
      = { b with threePhase := true, odD := 3, odC := 0, latchD := i2cVal g true true, dirD := i2cDir g } := rfl

theorem foldl_i2cCloseSeq (b : Bridge) :
    i2cCloseSeq.foldl Bridge.command b = { b with threePhase := false, odD := 0, odC := 0 } := rfl

end Sys2Proof.Machine
end

section
/-! PROOF. The response stream stays in step (R43, R162). A write that succeeds adds the responses it asks for to those
pending, and the read that follows takes as many: every operation of a request but the pipelined chunks ends with none
pending, and between two chunks those of the last one are. -/

namespace Sys2Proof.Machine

/-- An open device whose bridge understands what it is sent, with `n` response bytes pending at the host. -/
structure State.Pends (p : Params) (n : Nat) (s : State) : Prop where
  cfg : s.cfg = p
  mux : s.ste.mux = openMux s.cfg.chip
  aligned : p.chip = .cmd → s.bridge.aligned = true
  queue : s.bridge.queue = []
  sent : s.bridge.sent.length = n

/-- After a success `n` response bytes are pending; an error that is not the transport's leaves none. -/
def Res.Leaves {α : Type} (p : Params) (n : Nat) : Res α → Prop
  | .ok _ t => t.Pends p n
  | .err e t => e.class ≠ .transport → t.Pends p 0

variable {p : Params} {m n : Nat}

theorem Res.Leaves.bind {α β : Type} {x : Res α} {f : α → State → Res β} (hx : x.Leaves p m)
    (hf : ∀ a t, x = .ok a t → t.Pends p m → (f a t).Leaves p n) : (x.bind f).Leaves p n := by
  cases x with
  | ok a t => exact hf a t rfl hx
  | err e t => exact hx

theorem Res.Leaves.ok {α : Type} {s : State} (h : s.Pends p n) (a : α) : (Res.ok a s).Leaves p n := h

theorem Res.Leaves.err {α : Type} {s : State} (h : s.Pends p 0) (e : Err) : (Res.err e s : Res α).Leaves p n := fun _ => h

theorem Res.Leaves.reply {α : Type} {x : Res α} (h : x.Leaves p n) (f : α → State → Reply) : (x.reply f).Leaves p n :=
  h.bind fun a _ _ ht => .ok ht (f a _)

/-- A transport error says nothing of the responses. -/
theorem Res.Leaves.of_transport {α : Type} {e : Err} {t : State} (h : e.class = .transport) :
    (Res.err e t : Res α).Leaves p n := fun hne => absurd h hne

theorem State.Pends.withSte {s : State} (h : s.Pends p n) {f : Ste → Ste} (hmux : (f s.ste).mux = s.ste.mux) :
    (s.withSte f).Pends p n := ⟨h.cfg, hmux.trans h.mux, h.aligned, h.queue, h.sent⟩

theorem State.Pends.writeBuf {s : State} (h : s.Pends p n) (j i : Nat) (v : List Byte) : (s.writeBuf j i v).Pends p n :=
  ⟨h.cfg, h.mux, h.aligned, h.queue, h.sent⟩

theorem State.Pends.addResult {s : State} (h : s.Pends p n) (r : Result) : (s.addResult r).Pends p n :=
  ⟨h.cfg, h.mux, h.aligned, h.queue, h.sent⟩

/-! ### The events -/

/-- Where the bridge understands them, these commands ask for `n` responses, and leave none queued. -/
def Asks (cs : List Instr) (n : Nat) : Prop :=
  ∀ b : Bridge, b.queue = [] → (cs.foldl Bridge.command b).aligned = b.aligned ∧ (cs.foldl Bridge.command b).queue = []
    ∧ (cs.foldl Bridge.command b).sent.length = b.sent.length + n

theorem Asks.append {xs ys : List Instr} (hx : Asks xs m) (hy : Asks ys n) : Asks (xs ++ ys) (m + n) := by
  intro b hb
  obtain ⟨hxa, hxq, hxs⟩ := hx b hb
  obtain ⟨hya, hyq, hys⟩ := hy _ hxq
  rw [List.foldl_append]
  exact ⟨hya.trans hxa, hyq, by omega⟩

theorem setsLow_asks (dir : Byte) (vals : List Byte) : Asks (setsLow dir vals) 0 := by
  intro b hb
  obtain ⟨x, y, h⟩ := foldl_setsLow_pins dir vals b
  rw [h]
  exact ⟨rfl, hb, rfl⟩

theorem chunkSeq_asks (c : SpiConn) (chunk : Nat) (q : Packet) (r : List Byte) (k : Nat) :
    Asks (chunkSeq c chunk q r k) (if hasR q then (chunkData chunk q r k).length else 0) := by
  intro b hb
  rw [foldl_chunkSeq, chunkBridge, hb]
  cases hasR q with
  | true => exact ⟨rfl, rfl, by simp⟩
  | false => exact ⟨rfl, rfl, rfl⟩

theorem i2cWbSeq_asks (g : Group) (x : Byte) : Asks (i2cWbSeq g x) 1 := by
  intro b hb
  rw [foldl_i2cWbSeq, hb]
  exact ⟨rfl, rfl, by simp⟩

theorem i2cRbSeq_asks (g : Group) (last : Bool) : Asks (i2cRbSeq g last) 1 := by
  intro b hb
  rw [foldl_i2cRbSeq, hb]
  exact ⟨rfl, rfl, by simp⟩

/-- The commands of a group read. -/
theorem groupRead_asks (g : GroupId) : Asks [match g with | .d => .readBitsLow | .c => .readBitsHigh, .sendImmediate] 1 := by
  intro b hb
  cases g <;> exact ⟨rfl, rfl, by simp [Bridge.command, Instr.shift?, Bridge.plain, Bridge.answer, hb]⟩

/-- A write of commands adds the responses it asks for. -/
theorem emitCmds_leaves {cs : List Instr} {s : State} (hs : s.Pends p m) (hc : p.chip = .cmd) (h : Asks cs n) :
    (emitCmds cs s).Leaves p (m + n) := by
  have hchip : s.cfg.chip = .cmd := hs.cfg ▸ hc
  cases hx : emitCmds cs s with
  | ok a t =>
    have hio := (emitCmds_io cs s).ok hx
    obtain ⟨-, rfl⟩ := emitCmds_ok hchip hx
    have hu : s.bridge.understands s.ste.mux := ⟨by rw [hs.mux, hchip]; rfl, hs.aligned hc⟩
    obtain ⟨haligned, hqueue, hsent⟩ := h s.bridge hs.queue
    refine ⟨hs.cfg, hio.ste.mux hs.mux, fun _ => ?_, ?_, ?_⟩ <;>
      rw [State.went_bridge, Bridge.feed_ready _ _ hu]
    · exact haligned.trans (hs.aligned hc)
    · exact hqueue
    · rw [hsent, hs.sent]
  | err e t =>
    obtain ⟨n, rfl, -, -⟩ := emitCmds_err_went hchip hx
    exact .of_transport rfl

/-- A write of samples adds one for each. -/
theorem emitSamples_leaves (bs : List Byte) {s : State} (hs : s.Pends p m) (hc : p.chip = .bb) :
    (emitSamples bs s).Leaves p (m + bs.length) := by
  have hchip : s.cfg.chip = .bb := hs.cfg ▸ hc
  cases hx : emitSamples bs s with
  | ok a t =>
    have hio := (emitSamples_io bs s).ok hx
    obtain ⟨-, rfl⟩ := emitSamples_ok hx
    have hm : s.ste.mux = .syncBb := by rw [hs.mux, hchip]; rfl
    refine ⟨hs.cfg, hio.ste.mux hs.mux, fun h => absurd (hc.symm.trans h) nofun, ?_, ?_⟩ <;>
      rw [State.went_bridge, Bridge.feedSamples, if_pos hm]
    · exact hs.queue
    · rw [List.length_append, List.length_map, hs.sent]
  | err e t =>
    obtain ⟨n, rfl, -, -⟩ := emitSamples_err_went hx
    exact .of_transport rfl

/-- A read takes as many as it asked for. -/
theorem rd_leaves (k : Nat) {s : State} (hs : s.Pends p m) : (rd k s).Leaves p (m - k) := by
  cases hx : rd k s with
  | ok x t =>
    obtain ⟨-, -, rfl⟩ := rd_ok hx
    refine ⟨hs.cfg, hs.mux, hs.aligned, ?_, ?_⟩
    · simp [Bridge.consume, hs.queue]
    · simp [Bridge.consume, hs.sent]
  | err e t =>
    obtain ⟨x, st, he, -, -⟩ := rd_err_went hx
    exact .of_transport (Event.error_class he)

theorem clockSelect_leaves (f : Rat) {s : State} (hs : s.Pends p 0) (hc : p.chip = .cmd) : (clockSelect f s).Leaves p 0 := by
  unfold clockSelect
  split
  · exact .err hs _
  next low d _ =>
    have hasks : Asks (clockSeq low d) 0 := fun b hb => by
      rw [foldl_clockSeq]
      exact ⟨rfl, hb, rfl⟩
    have hw := emitCmds_leaves hs hc hasks
    split
    next t hx =>
      rw [hx] at hw
      exact State.Pends.withSte hw rfl
    next e t hx =>
      obtain ⟨n, rfl, -, -⟩ := emitCmds_err_went (hs.cfg ▸ hc) hx
      exact .of_transport rfl

/-- The two control requests of an open BB device leave the responses alone. -/
theorem ctrl_leaves {q : CtrlReq} (hq : (∃ dir, q = .setBitmode dir .syncBb) ∨ ∃ r, q = .setRate r) {s : State}
    (hs : s.Pends p n) (hc : p.chip = .bb) : (ctrl q s).Leaves p n := by
  have hchip : s.cfg.chip = .bb := hs.cfg ▸ hc
  cases hx : ctrl q s with
  | ok a t =>
    obtain ⟨-, rfl⟩ := ctrl_ok hx
    rcases hq with ⟨dir, rfl⟩ | ⟨r, rfl⟩
    · refine ⟨hs.cfg, ?_, hs.aligned, hs.queue, hs.sent⟩
      simp only [State.went_ste, State.went_cfg, hchip]
      rfl
    · exact ⟨hs.cfg, hs.mux, hs.aligned, hs.queue, hs.sent⟩
  | err e t =>
    obtain ⟨rfl, -, -⟩ := ctrl_err_went hx
    exact .of_transport rfl

/-! ### Group primitives -/

theorem bbGroupSet_leaves (val dir : Byte) {s : State} (hs : s.Pends p 0) (hc : p.chip = .bb) :
    (bbGroupSet val dir s).Leaves p 0 := by
  have hdir : (bbDirection dir s).Leaves p 0 := by
    unfold bbDirection
    split
    · exact ctrl_leaves (.inl ⟨dir, rfl⟩) hs hc
    · exact .ok hs ()
  exact hdir.bind fun _ _ _ ht => (emitSamples_leaves _ ht hc).bind fun _ _ _ hu =>
    (rd_leaves 1 hu).bind fun _ _ _ hv => .ok (hv.withSte rfl) ()

theorem groupSet_leaves (g : GroupId) (val dir : Byte) {s : State} (hs : s.Pends p 0) :
    (groupSet g val dir s).Leaves p 0 := by
  unfold groupSet
  split
  next hc =>
    cases g with
    | d => exact emitCmds_leaves hs (hs.cfg ▸ hc) (n := 0) fun b hb => ⟨rfl, hb, rfl⟩
    | c => exact emitCmds_leaves hs (hs.cfg ▸ hc) (n := 0) fun b hb => ⟨rfl, hb, rfl⟩
  next hc => exact bbGroupSet_leaves val dir hs (hs.cfg ▸ hc)

theorem groupRead_leaves (g : GroupId) {s : State} (hs : s.Pends p 0) : (groupRead g s).Leaves p 0 := by
  unfold groupRead
  refine Res.Leaves.bind (m := 1) ?_ fun _ _ _ ht => (rd_leaves 1 ht).bind fun _ _ _ hu => .ok hu _
  split
  next hc =>
    cases g with
    | d => exact emitCmds_leaves hs (hs.cfg ▸ hc) (groupRead_asks .d)
    | c => exact emitCmds_leaves hs (hs.cfg ▸ hc) (groupRead_asks .c)
  next hc => exact emitSamples_leaves _ hs (hs.cfg ▸ hc)

theorem onPin_leaves {g : GroupId} {i : Fin 8} {body : State → Res Reply} {s : State} (hs : s.Pends p 0)
    (h : (body s).Leaves p 0) : (onPin g i body s).Leaves p 0 := by
  unfold onPin
  split
  · exact .err hs _
  · exact h

/-! ### I²C -/

theorem onCmd_leaves {body : State → Res Reply} {s : State} (hs : s.Pends p 0)
    (h : p.chip = .cmd → (body s).Leaves p 0) : (onCmd body s).Leaves p 0 := by
  unfold onCmd
  split
  next hc => exact h (hs.cfg ▸ hc)
  next => exact .err hs _

theorem withI2c_leaves {body : I2cBus → State → Res Reply} {s : State} (hs : s.Pends p 0)
    (h : ∀ b, (body b s).Leaves p 0) : (withI2c body s).Leaves p 0 := by
  unfold withI2c
  split
  · exact .err hs _
  · exact h _

theorem i2cOpen_leaves (pull : Pull) {s : State} (hs : s.Pends p 0) (hc : p.chip = .cmd) : (i2cOpen pull s).Leaves p 0 := by
  unfold i2cOpen
  split
  · exact .err hs _
  · split
    · exact .err hs _
    · refine (clockSelect_leaves _ hs hc).bind fun _ t _ ht => ?_
      refine (emitCmds_leaves ht hc (n := 0) fun b hb => ?_).bind fun _ u _ hu => .ok (hu.withSte rfl) _
      rw [foldl_i2cOpenSeq]
      exact ⟨rfl, hb, rfl⟩

theorem i2cStopIdle_leaves {s : State} (hs : s.Pends p 0) (hc : p.chip = .cmd) : (i2cStopIdle s).Leaves p 0 :=
  emitCmds_leaves hs hc (i2cStopIdleSeq_sets _ _ ▸ setsLow_asks _ _)

theorem i2cWriteByte_leaves (x : Byte) {s : State} (hs : s.Pends p 0) (hc : p.chip = .cmd) :
    (i2cWriteByte x s).Leaves p 0 :=
  (emitCmds_leaves hs hc (i2cWbSeq_asks _ x)).bind fun _ _ _ ht => (rd_leaves 1 ht).bind fun _ _ _ hu => by
    split
    · exact (i2cStopIdle_leaves hu hc).bind fun _ _ _ hv => .err hv _
    · exact .ok hu ()

theorem i2cWriteBytes_leaves (xs : List Byte) {s : State} (hs : s.Pends p 0) (hc : p.chip = .cmd) :
    (i2cWriteBytes xs s).Leaves p 0 := by
  induction xs generalizing s with
  | nil => exact .ok hs ()
  | cons x xs ih => exact (i2cWriteByte_leaves x hs hc).bind fun _ _ _ ht => ih ht

theorem i2cReadBytes_leaves (count j : Nat) {s : State} (hs : s.Pends p 0) (hc : p.chip = .cmd) :
    (i2cReadBytes count j s).Leaves p 0 := by
  induction count generalizing j s with
  | zero => exact .ok hs ()
  | succ count ih =>
    exact (emitCmds_leaves hs hc (i2cRbSeq_asks _ _)).bind fun _ _ _ ht =>
      (rd_leaves 1 ht).bind fun x _ _ hu => ih _ (hu.writeBuf 0 j x)

theorem i2cTx_leaves (addr : Nat) (w : List Byte) (len : Nat) {s : State} (hs : s.Pends p 0) (hc : p.chip = .cmd) :
    (i2cTx addr w len s).Leaves p 0 := by
  unfold i2cTx
  split
  · exact .err hs _
  · exact (emitCmds_leaves hs hc (i2cStartSeq_sets _ _ ▸ setsLow_asks _ _)).bind fun _ _ _ ht =>
      (i2cWriteBytes_leaves _ ht hc).bind fun _ _ _ hu => (i2cReadBytes_leaves _ _ hu hc).bind fun _ _ _ hv =>
      (i2cStopIdle_leaves hv hc).bind fun _ _ _ hx => .ok hx _

/-! ### SPI -/

theorem connectIo_leaves (c : SpiConn) {s : State} (hs : s.Pends p 0) : (connectIo c s).Leaves p 0 := by
  unfold connectIo
  split
  next hc =>
    have hc : p.chip = .cmd := hs.cfg ▸ hc
    have hclock : (connectClock c s).Leaves p 0 := by
      unfold connectClock
      split
      · exact (clockSelect_leaves _ hs hc).bind fun _ _ _ ht => .ok ht ()
      · exact .ok hs ()
    refine hclock.bind fun _ t _ ht => emitCmds_leaves ht hc (n := 0) fun b hb => ?_
    rw [foldl_connectSeq]
    exact ⟨rfl, hb, rfl⟩
  next hc =>
    have hc : p.chip = .bb := hs.cfg ▸ hc
    have hrate : (connectRate c s).Leaves p 0 := by
      unfold connectRate
      split
      · have hctrl := ctrl_leaves (.inr ⟨2 * c.freq, rfl⟩) hs hc
        split
        next t hx =>
          rw [hx] at hctrl
          exact State.Pends.withSte hctrl rfl
        next e t hx =>
          obtain ⟨rfl, -, -⟩ := ctrl_err_went hx
          exact .of_transport rfl
      · exact .ok hs ()
    exact hrate.bind fun _ _ _ ht => bbGroupSet_leaves _ _ ht hc

theorem spiConnect_leaves (f mode bits : Nat) {s : State} (hs : s.Pends p 0) : (spiConnect f mode bits s).Leaves p 0 := by
  unfold spiConnect
  split
  · exact .err hs _
  · exact (connectIo_leaves _ hs).bind fun _ _ _ ht => .ok (ht.withSte rfl) _

/-- The responses a chunk asks for. -/
def chunkAsks (p : Params) (q : Packet) (k : Nat) : Nat := if hasR q then chunkLen p.pChunk q k else 0

theorem emitChunk_leaves {c : SpiConn} {q : Packet} {j : Nat} (k : Nat) {head : List Instr} {s : State} (hs : s.Pends p m)
    (hc : p.chip = .cmd) (hq : packetError q = none) (hbuf : (s.buf j).length = q.r.length) (hhead : Asks head 0) :
    (emitChunk c q j k head s).Leaves p (m + chunkAsks p q k) := by
  have hlen : (chunkData p.pChunk q (s.buf j) k).length = chunkLen p.pChunk q k :=
    memRead_chunk_length (chunkSrc_length hq hbuf)
  have hasks := hhead.append (chunkSeq_asks c p.pChunk q (s.buf j) k)
  rw [hlen, Nat.zero_add] at hasks
  unfold emitChunk
  rw [hs.cfg]
  exact emitCmds_leaves hs hc hasks

theorem readChunk_leaves (q : Packet) (j k : Nat) {s : State} (hs : s.Pends p m) :
    (readChunk q j k s).Leaves p (m - chunkAsks p q k) := by
  unfold readChunk chunkAsks
  split
  · rw [hs.cfg]
    exact (rd_leaves _ hs).bind fun x _ _ ht => .ok (ht.writeBuf _ _ x) ()
  · exact .ok hs ()

theorem emitChunk_buf_length {c : SpiConn} {q : Packet} {j k : Nat} {head : List Instr} {s t : State} {a : Unit}
    (h : emitChunk c q j k head s = .ok a t) : (t.buf j).length = (s.buf j).length := by
  rw [State.buf_length, ← Res.state_eq h, emitChunk_bufLens, ← State.buf_length]

theorem readChunk_buf_length {q : Packet} {j k : Nat} {s t : State} {a : Unit} (h : readChunk q j k s = .ok a t) :
    (t.buf j).length = (s.buf j).length := by
  rw [State.buf_length, ← Res.state_eq h, readChunk_bufLens, ← State.buf_length]

/-- Between two chunks the responses of the last one are pending. -/
theorem txChunks_leaves {c : SpiConn} {q : Packet} {j : Nat} (count k : Nat) {s : State} (hs : s.Pends p (chunkAsks p q k))
    (hc : p.chip = .cmd) (hq : packetError q = none) (hbuf : (s.buf j).length = q.r.length) :
    (txChunks c q j count (k + 1) s).Leaves p (chunkAsks p q (k + count)) := by
  induction count generalizing k s with
  | zero => exact .ok hs ()
  | succ count ih =>
    refine (emitChunk_leaves (k + 1) hs hc hq hbuf (setsLow_asks 0 [])).bind fun _ t ht hpt => ?_
    have hread := readChunk_leaves q j k hpt
    rw [Nat.add_sub_cancel_left] at hread
    refine hread.bind fun _ u hu hpu => ?_
    have hlen : (u.buf j).length = q.r.length := by rw [readChunk_buf_length hu, emitChunk_buf_length ht, hbuf]
    have := ih (k + 1) hpu hlen
    rwa [Nat.add_right_comm k 1 count] at this

theorem emitTrailer_leaves (c : SpiConn) {s : State} (hs : s.Pends p 0) (hc : p.chip = .cmd) :
    (emitTrailer c s).Leaves p 0 := by
  unfold emitTrailer
  split
  · exact .ok hs ()
  · exact emitCmds_leaves hs hc (spiTrailerSeq_sets _ _ ▸ setsLow_asks _ _)

theorem txPacket_leaves {c : SpiConn} {q : Packet} {j : Nat} {s : State} (hs : s.Pends p 0) (hc : p.chip = .cmd)
    (hq : packetError q = none) (hbuf : (s.buf j).length = q.r.length) : (txPacket c q j s).Leaves p 0 := by
  have hfirst := emitChunk_leaves (c := c) (j := j) 0 hs hc hq hbuf (spiHeaderSeq_sets c s.ste.grpD ▸ setsLow_asks _ _)
  rw [Nat.zero_add] at hfirst
  refine hfirst.bind fun _ t ht hpt => ?_
  refine (txChunks_leaves (chunkCount s.cfg.pChunk q - 1) 0 hpt hc hq (by rw [emitChunk_buf_length ht, hbuf])).bind
    fun _ u _ hpu => ?_
  have hlast := readChunk_leaves q j (chunkCount s.cfg.pChunk q - 1) hpu
  rw [Nat.zero_add, Nat.sub_self] at hlast
  exact hlast.bind fun _ v _ hpv => emitTrailer_leaves c hpv hc

theorem bbPacket_leaves (c : SpiConn) (q : Packet) (j : Nat) {s : State} (hs : s.Pends p 0) (hc : p.chip = .bb) :
    (bbPacket c q j s).Leaves p 0 := by
  refine (emitSamples_leaves _ hs hc).bind fun _ t _ ht => ?_
  have hread := rd_leaves (bbFrameOf c s.ste.grpD q).length ht
  rw [Nat.zero_add, Nat.sub_self] at hread
  refine hread.bind fun _ u _ hu => ?_
  show State.Pends p 0 (if _ then _ else _)
  split
  · exact hu.writeBuf _ _ _
  · exact hu

theorem sendPackets_leaves {c : SpiConn} {qs : List Packet} {j : Nat} {s : State} (hs : s.Pends p 0)
    (hq : ∀ q ∈ qs, packetError q = none) (hbufs : s.bufLens.drop j = qs.map fun q => q.r.length) :
    (sendPackets c j qs s).Leaves p 0 := by
  induction qs generalizing j s with
  | nil => exact .ok hs ()
  | cons q qs ih =>
    obtain ⟨hq, hqs⟩ := List.forall_mem_cons.mp hq
    have hbuf : (s.buf j).length = q.r.length := s.buf_length_of_drop hbufs
    have hsend : (sendPacket c q j s).Leaves p 0 := by
      unfold sendPacket
      split
      next hc => exact txPacket_leaves hs (hs.cfg ▸ hc) hq hbuf
      next hc => exact bbPacket_leaves c q j hs (hs.cfg ▸ hc)
    refine hsend.bind fun _ t ht hpt => ih hpt hqs ?_
    rw [← Res.state_eq ht, sendPacket_bufLens, ← List.drop_drop, hbufs]
    rfl

theorem spiTxPackets_leaves {qs : List Packet} {s : State} (hs : s.Pends p 0) (hbufs : s.bufs = qs.map (·.r)) :
    (spiTxPackets qs s).Leaves p 0 := by
  unfold spiTxPackets
  split
  · exact .err hs _
  · split
    · exact .err hs _
    next hnone =>
      refine sendPackets_leaves hs (packetsError_none hnone) ?_
      rw [List.drop_zero, State.bufLens, hbufs, List.map_map]
      rfl

/-! ### The end of a request -/

theorem State.Pends.inStep {s : State} (h : s.Pends p 0) : s.inStep :=
  ⟨fun hc => h.aligned (h.cfg ▸ hc), h.queue, List.length_eq_zero_iff.mp h.sent⟩

theorem finish_inStep {g : GroupId} {x : Res Reply} {s : State} {r : Result} (hx : x.Leaves p 0)
    (hr : (finish g x).results = s.results ++ [r]) (he : ∀ e ∈ r.err, e.class ≠ .transport) : (finish g x).inStep := by
  cases x with
  | ok v t => exact (State.Pends.addResult hx _).inStep
  | err e t =>
    have hclass : e.class ≠ .transport := by
      have hresult : r = .failed e := by
        rw [finish_err, State.raise] at hr
        exact (State.addResult_inj hr).symm
      exact he e (hresult ▸ rfl)
    rw [finish_err, State.raise_of_not_transport hclass]
    exact (State.Pends.addResult (hx hclass) _).inStep

/-- Settles O59: what each request leaves pending, ended as the request is. -/
theorem responsesStayInStep : Obligations.ResponsesStayInStep := by
  intro i s t r hi hdev hlegal hstep hexec hr he
  obtain ⟨haligned, hqueue, hsent⟩ := hstep
  have hs : ∀ rs, (s.loadBufs rs).Pends s.cfg 0 := fun rs => ⟨rfl, hlegal.1 hdev, haligned, hqueue, by simp [hsent]⟩
  have hs' : s.Pends s.cfg 0 := ⟨rfl, hlegal.1 hdev, haligned, hqueue, by simp [hsent]⟩
  have hrequest : ∀ {g body} {u : State}, u.ste.dev = .opened → (body u).Leaves s.cfg 0 → request g body u = .next t →
      t.inStep := by
    intro g body u hopen hbody ht
    rw [request_open hopen] at ht
    cases ht
    exact finish_inStep hbody hr he
  cases i with
  | devOpen =>
    cases hexec
    rw [devOpen, if_pos hdev]
    exact ⟨haligned, hqueue, hsent⟩
  | devClose =>
    cases hexec
    rw [devClose_of_not_closed (by rw [hdev]; exact nofun)]
    exact ⟨haligned, hqueue, hsent⟩
  | spiConnect f mode bits => exact hrequest hdev (spiConnect_leaves f mode bits hs') hexec
  | spiTx w r => exact hrequest (u := s.loadBufs [r]) hdev ((spiTxPackets_leaves (hs _) rfl).reply _) hexec
  | spiTxPackets qs =>
    exact hrequest (u := s.loadBufs (qs.map Packet.r)) hdev ((spiTxPackets_leaves (hs _) rfl).reply _) hexec
  | spiClose =>
    refine hrequest hdev (body := spiClose) ?_ hexec
    unfold spiClose
    split
    · exact .err hs' _
    · exact .ok (hs'.withSte rfl) _
  | i2cOpen pull => exact hrequest hdev (onCmd_leaves hs' (i2cOpen_leaves pull hs')) hexec
  | i2cSetSpeed rate =>
    exact hrequest hdev (onCmd_leaves hs' fun hc => withI2c_leaves hs' fun _ =>
      (clockSelect_leaves _ hs' hc).bind fun _ _ _ ht => .ok (ht.withSte rfl) _) hexec
  | i2cTx addr w r =>
    exact hrequest (u := s.loadBufs [r]) hdev (onCmd_leaves (hs _) fun hc => withI2c_leaves (hs _) fun _ =>
      i2cTx_leaves addr w _ (hs _) hc) hexec
  | i2cClose =>
    exact hrequest hdev (onCmd_leaves hs' fun hc => withI2c_leaves hs' fun _ =>
      (emitCmds_leaves (cs := i2cCloseSeq) (hs'.withSte rfl) hc (n := 0) fun _ hb => ⟨rfl, hb, rfl⟩).reply _) hexec
  | gpioOut g n level => exact hrequest hdev (onPin_leaves hs' ((groupSet_leaves g _ _ hs').reply _)) hexec
  | gpioIn g n => exact hrequest hdev (onPin_leaves hs' ((groupSet_leaves g _ _ hs').reply _)) hexec
  | gpioRead g n => exact hrequest hdev (onPin_leaves hs' ((groupRead_leaves g hs').reply _)) hexec
  | _ => cases hi

end Sys2Proof.Machine
end

section
/-! PROOF. The commands of the command stream, run alone (R58 to R69, R75, R97). `exec` of a command is said once for all of
them (`exec_command`); what the bridge does with a data shift, and what it does with each other command, gives the rows. -/

namespace Sys2Proof.Machine

/-! ### One accepted command -/

theorem Instr.emittable_iff {i : Instr} : i.emittable = true ↔ i.isCommand = true ∧ i.wf = true ∧ i.listed = true := by
  simp [Instr.emittable, and_assoc]

/-- A command the STE emits runs as one write of its bytes: the cache follows it and the bridge does it. -/
theorem runsAs_command {i : Instr} (h : i.emittable = true) {bs : List Byte} {f : Ste → Ste} {g : Bridge → Bridge}
    (hb : encode i = bs) (hf : ∀ t, trackSet t i = f t) (hg : ∀ b, b.command i = g b) : runsAs i bs f g := by
  intro s hr hgives
  obtain ⟨hcommand, -, hlisted⟩ := Instr.emittable_iff.mp h
  rw [exec_command hcommand hlisted, runCommand_sent hr h hb hgives, hf, hg]

/-- A data shift R69 lists, with operands that have an encoding (R60, R61). -/
theorem runsAs_shift {i : Instr} {sel : ShiftSel} {n : Nat} {p : List Byte} (hi : i.shift? = some (sel, n, p))
    (h : i.emittable = true) {bs : List Byte} {g : Bridge → Bridge} (hb : encodeShift sel n p = bs)
    (hg : ∀ b : Bridge, { b with wire := b.wire ++ shiftOutBits sel n p, queue := b.queue ++ shiftResponses sel n } = g b) :
    runsAs i bs id g := by
  obtain ⟨-, -, hlisted⟩ := Instr.emittable_iff.mp h
  refine runsAs_command h ?_ (fun t => trackSet_shift hi t) fun b => ?_
  · rw [Instr.encode_of_shift? hi, hb]
  · rw [Bridge.command_shift hi (emittedSels_of_listed hi hlisted), hg]

/-! ### Byte shifts (R60) -/

/-- A length field written out, low byte first (R34). -/
theorem field16_mod (n : Nat) : field16 n = [BitVec.ofNat 8 (n % 256), BitVec.ofNat 8 (n / 256 % 256)] := by
  rw [lo8_mod, hi8_mod, field16]

theorem encodeShift_bytes {sel : ShiftSel} (hbits : sel.bits = false) (n : Nat) (p : List Byte) :
    encodeShift sel n p
      = [sel.opcode, BitVec.ofNat 8 ((n - 1) % 256), BitVec.ofNat 8 ((n - 1) / 256 % 256)] ++ p := by
  rw [encodeShift, if_neg (Bool.eq_false_iff.mp hbits), field16_mod]
  rfl

theorem shiftOutBits_bytes {sel : ShiftSel} (hbits : sel.bits = false) (n : Nat) (p : List Byte) :
    shiftOutBits sel n p = if sel.out then p.flatMap (shiftOrder sel.lsb) else [] := by
  simp only [shiftOutBits, hbits, Bool.false_eq_true, if_false]

theorem shiftResponses_bytes {sel : ShiftSel} (hbits : sel.bits = false) (n : Nat) :
    shiftResponses sel n = if sel.inn then List.replicate n .data else [] := by
  simp only [shiftResponses, hbits, Bool.false_eq_true, if_false]

/-- The bit order of R35: bit 7 first, or bit 0 first. -/
def bitOrder (lsb : Bool) : List Nat := if lsb then [0, 1, 2, 3, 4, 5, 6, 7] else [7, 6, 5, 4, 3, 2, 1, 0]

theorem shiftOrder_eq (lsb : Bool) (x : Byte) : shiftOrder lsb x = (bitOrder lsb).map x.getLsbD := by cases lsb <;> rfl

/-- A byte shift with a payload, for the six rows that have one (R60). -/
theorem runsAs_shiftBytes {i : Instr} {sel : ShiftSel} {p : List Byte} (hi : i.shift? = some (sel, p.length, p))
    (h : i.emittable = true) (hbits : sel.bits = false) (hout : sel.out = true) :
    runsAs i ([sel.opcode, BitVec.ofNat 8 ((p.length - 1) % 256), BitVec.ofNat 8 ((p.length - 1) / 256 % 256)] ++ p) id
      fun b =>
        { b with
          wire := b.wire ++ p.flatMap fun x => (bitOrder sel.lsb).map x.getLsbD
          queue := b.queue ++ if sel.inn then List.replicate p.length .data else [] } := by
  refine runsAs_shift hi h (encodeShift_bytes hbits _ _) fun b => ?_
  rw [shiftOutBits_bytes hbits, shiftResponses_bytes hbits, if_pos hout, funext (shiftOrder_eq sel.lsb)]

/-- One that only shifts out queues nothing. -/
theorem runsAs_shiftBytesOut {i : Instr} {sel : ShiftSel} {p : List Byte} (hi : i.shift? = some (sel, p.length, p))
    (h : i.emittable = true) (hbits : sel.bits = false) (hout : sel.out = true) (hinn : sel.inn = false) :
    runsAs i ([sel.opcode, BitVec.ofNat 8 ((p.length - 1) % 256), BitVec.ofNat 8 ((p.length - 1) / 256 % 256)] ++ p) id
      fun b => { b with wire := b.wire ++ p.flatMap fun x => (bitOrder sel.lsb).map x.getLsbD } := by
  intro s hr hgives
  rw [runsAs_shiftBytes hi h hbits hout s hr hgives]
  simp only [hinn, Bool.false_eq_true, if_false, List.append_nil]

/-- Settles O1. -/
theorem shiftBytesOutRuns : Obligations.ShiftBytesOutRuns := by
  intro p hpos hmax
  have he : (Instr.shiftBytesOut10 p).wf = true := by simp [Instr.wf, hpos, hmax]
  exact ⟨runsAs_shiftBytesOut (i := .shiftBytesOut10 p) (sel := sel10) rfl (Instr.emittable_iff.mpr ⟨rfl, he, rfl⟩) rfl rfl rfl,
    runsAs_shiftBytesOut (i := .shiftBytesOut11 p) (sel := sel11) rfl (Instr.emittable_iff.mpr ⟨rfl, he, rfl⟩) rfl rfl rfl,
    runsAs_shiftBytesOut (i := .shiftBytesOut18 p) (sel := sel18) rfl (Instr.emittable_iff.mpr ⟨rfl, he, rfl⟩) rfl rfl rfl,
    runsAs_shiftBytesOut (i := .shiftBytesOut19 p) (sel := sel19) rfl (Instr.emittable_iff.mpr ⟨rfl, he, rfl⟩) rfl rfl rfl⟩

/-- Settles O2. -/
theorem shiftBytesInRuns : Obligations.ShiftBytesInRuns := by
  refine ⟨fun n hpos hmax => ?_, fun p hpos hmax => ?_⟩
  · have he : (Instr.shiftBytesIn n).emittable = true := Instr.emittable_iff.mpr ⟨rfl, by simp [Instr.wf, hpos, hmax], rfl⟩
    refine runsAs_shift rfl he (encodeShift_bytes rfl n []) fun b => ?_
    rw [shiftOutBits_bytes rfl, shiftResponses_bytes rfl]
    simp [sel20, transferSel]
  · have he : (Instr.shiftBytesInout31 p).wf = true := by simp [Instr.wf, hpos, hmax]
    exact ⟨runsAs_shiftBytes (i := .shiftBytesInout31 p) (sel := sel31) rfl (Instr.emittable_iff.mpr ⟨rfl, he, rfl⟩) rfl rfl,
      runsAs_shiftBytes (i := .shiftBytesInout34 p) (sel := sel34) rfl (Instr.emittable_iff.mpr ⟨rfl, he, rfl⟩) rfl rfl,
      runsAs_shiftBytes (i := .shiftBytesInout39 p) (sel := sel39) rfl (Instr.emittable_iff.mpr ⟨rfl, he, rfl⟩) rfl rfl,
      runsAs_shiftBytes (i := .shiftBytesInout3C p) (sel := sel3C) rfl (Instr.emittable_iff.mpr ⟨rfl, he, rfl⟩) rfl rfl⟩

/-! ### Bit shifts (R61) -/

/-- The `nb` most significant bits, most significant first. -/
theorem take_shiftOrder {nb : Nat} (h : nb ≤ 8) (x : Byte) :
    (shiftOrder false x).take nb = (List.range nb).map fun k => x.getLsbD (7 - k) := by
  rw [shiftOrder, ← List.map_take, List.take_range, Nat.min_eq_left h]
  rfl

/-- Settles O3. -/
theorem shiftBitsRuns : Obligations.ShiftBitsRuns := by
  intro nb hpos hmax
  have hin : (Instr.shiftBitsIn nb).emittable = true := Instr.emittable_iff.mpr ⟨rfl, by simp [Instr.wf, hpos, hmax], rfl⟩
  refine ⟨runsAs_shift rfl hin rfl fun b => ?_, fun x => ?_⟩
  · simp [shiftOutBits, shiftResponses, sel22, transferSel]
  · have hout : (Instr.shiftBitsOut nb x).emittable = true :=
      Instr.emittable_iff.mpr ⟨rfl, by simp [Instr.wf, hpos, hmax], rfl⟩
    refine runsAs_shift rfl hout rfl fun b => ?_
    simp [shiftOutBits, shiftResponses, sel13, transferSel, take_shiftOrder hmax]

/-! ### Any data shift (R58, R69) -/

/-- R69's data-shift opcodes are those of the rows. -/
theorem opcode_mem_listed : ∀ sel : ShiftSel,
    sel.opcode ∈ ([0x10, 0x11, 0x18, 0x19, 0x20, 0x22, 0x13, 0x31, 0x34, 0x39, 0x3C] : List Byte)
      ↔ emittedSels.contains sel = true := by
  have hbits : ∀ inn out lsb inFall bits outFall : Bool,
      (ShiftSel.mk inn out lsb inFall bits outFall).opcode
          ∈ ([0x10, 0x11, 0x18, 0x19, 0x20, 0x22, 0x13, 0x31, 0x34, 0x39, 0x3C] : List Byte)
        ↔ emittedSels.contains (ShiftSel.mk inn out lsb inFall bits outFall) = true := by decide
  exact fun ⟨inn, out, lsb, inFall, bits, outFall⟩ => hbits inn out lsb inFall bits outFall

/-- A command whose operands have no encoding is refused. -/
theorem exec_badOperand {i : Instr} (hc : i.isCommand = true) (hl : i.listed = true) (hwf : i.wf = false) (s : State) :
    exec i s = .refused .badOperand := by
  have he : ¬i.emittable = true := fun he => by
    rw [(Instr.emittable_iff.mp he).2.1] at hwf
    cases hwf
  rw [exec_command hc hl, runCommand, if_neg he]

/-- Settles O4. -/
theorem dataShiftRunsOrStops : Obligations.DataShiftRunsOrStops := by
  intro sel n p
  split
  next hop =>
    have hl := (opcode_mem_listed sel).mp hop
    exact ⟨fun hwf => runsAs_shift (i := .dataShift sel n p) rfl (Instr.emittable_iff.mpr ⟨rfl, hwf, hl⟩) rfl fun _ => rfl,
      fun hwf => exec_badOperand rfl hl hwf⟩
  next hop => exact fun s => if_neg (mt (opcode_mem_listed sel).mpr hop)

/-- Settles O5. -/
theorem reservedStops : Obligations.ReservedStops := by
  refine ⟨fun op s => rfl, fun i s hc he => ?_⟩
  cases hl : i.listed with
  | true =>
    refine .inl (exec_badOperand hc hl ?_ s)
    simpa [Instr.emittable, hc, hl] using he
  | false => exact .inr (exec_unlisted hc hl s)

/-! ### The other commands (R62 to R68) -/

/-- Settles O6. -/
theorem groupSetRuns : Obligations.GroupSetRuns := fun _ _ =>
  ⟨runsAs_command rfl rfl (fun _ => rfl) fun _ => rfl, runsAs_command rfl rfl (fun _ => rfl) fun _ => rfl⟩

/-- Settles O7: each row's bytes, and what the bridge does with it, by definition. -/
theorem plainCommandsRun : Obligations.PlainCommandsRun := by
  have hdivisor : ∀ d : Nat, 1 ≤ d → d ≤ 65536 →
      runsAs (.setDivisor d) [0x86, BitVec.ofNat 8 ((d - 1) % 256), BitVec.ofNat 8 ((d - 1) / 256 % 256)] id
        (fun b => { b with divisor := d }) := by
    intro d hpos hmax
    refine runsAs_command (Instr.emittable_iff.mpr ⟨rfl, by simp [Instr.wf, hpos, hmax], rfl⟩) ?_ (fun _ => rfl) fun _ => rfl
    show OPC.setDivisor :: field16 (d - 1) = _
    rw [field16_mod]
  exact ⟨runsAs_command rfl rfl (fun _ => rfl) fun _ => rfl, runsAs_command rfl rfl (fun _ => rfl) fun _ => rfl,
    runsAs_command rfl rfl (fun _ => rfl) fun _ => rfl, runsAs_command rfl rfl (fun _ => rfl) fun _ => rfl, hdivisor,
    runsAs_command rfl rfl (fun _ => rfl) fun _ => rfl, runsAs_command rfl rfl (fun _ => rfl) fun _ => rfl,
    fun _ _ => runsAs_command rfl rfl (fun _ => rfl) fun _ => rfl, runsAs_command rfl rfl (fun _ => rfl) fun _ => rfl,
    runsAs_command rfl rfl (fun _ => rfl) fun _ => rfl, runsAs_command rfl rfl (fun _ => rfl) fun _ => rfl⟩

/-! ### The bridge's answer (R68, R69) -/

/-- R69's opcodes but for the probes, written out. -/
theorem isRecognised_iff : ∀ op : Byte, isRecognised op = true
    ↔ op ∈ ([0x10, 0x11, 0x18, 0x19, 0x20, 0x22, 0x13, 0x31, 0x34, 0x39, 0x3C, 0x80, 0x81, 0x82, 0x83, 0x86, 0x87, 0x8A,
        0x8B, 0x8C, 0x8D, 0x9E] : List Byte) := by decide

theorem exec_badCmd {s : State} (hc : s.cfg.chip = .cmd) (hm : s.ste.mux = .cmdStream) (op : Byte) :
    exec (.badCmd op) s = .next (s.withBridge (Bridge.badCmd op)) := if_pos ⟨hc, hm⟩

/-- Settles O8, by the three kinds of byte. -/
theorem badCmdQueues : Obligations.BadCmdQueues := by
  intro op s
  refine ⟨fun hc hm => ?_, fun hnot => if_neg hnot⟩
  rw [exec_badCmd hc hm]
  have hrec := isRecognised_iff op
  have hprobe : op = 0xAA ∨ op = 0xAB → isRecognised op = false := by
    rintro (rfl | rfl) <;> decide
  refine ⟨fun hp => ?_, fun hr => ?_, fun hp hr => ?_⟩ <;>
    obtain ⟨hkind, heq⟩ | ⟨hkind, heq⟩ | ⟨hkind, hkind', heq⟩ := Bridge.badCmd_cases op s.bridge
  · simp only [State.withBridge, heq, Bridge.answer]
  · rw [hprobe hp] at hkind
    cases hkind
  · exact absurd hp hkind
  · rw [hprobe hkind] at hrec
    exact absurd (hrec.mpr hr) Bool.false_ne_true
  · simp only [State.withBridge, heq]
  · rw [hkind'] at hrec
    exact absurd (hrec.mpr hr) Bool.false_ne_true
  · exact absurd hkind hp
  · exact absurd (hrec.mp hkind) hr
  · exact ⟨s.bridge.havoc, by simp only [State.withBridge, heq], rfl⟩

/-! ### Samples (R75, R76) -/

/-- A write of samples run alone. -/
theorem finish_emitSamples {s : State} {g : GroupId} {bs : List Byte} {x : Byte} (hm : s.ste.mux = .syncBb)
    (h : s.gives [.sent bs]) (hx : bs.getLast? = some x) :
    finish g ((emitSamples bs s).reply fun _ _ => .unit)
      = s.ran [.sent bs] { s.ste with grpD := { s.ste.grpD with val := x } }
          { s.bridge with latchD := x, sent := s.bridge.sent ++ List.replicate bs.length .sample } s.bufs .done := by
  rw [emitSamples_bb hm h hx, Res.reply_ok, finish_ok, State.went_addResult]

/-- Every command has a byte: its opcode. -/
theorem encode_ne_nil {i : Instr} (h : i.isCommand = true) : encode i ≠ [] := by
  cases hs : i.shift? with
  | some shift =>
    rw [Instr.encode_of_shift? (sel := shift.1) (n := shift.2.1) (p := shift.2.2) hs]
    exact List.cons_ne_nil _ _
  | none =>
    have hplain : i.isPlain = true := by simpa [Instr.isCommand, hs] using h
    cases i with
    | setBitsLow | readBitsLow | setBitsHigh | readBitsHigh | setDivisor | sendImmediate | div5Off | div5On | clk3PhaseOn
    | clk3PhaseOff | driveZeroOnly | probe1 | probe2 => exact List.cons_ne_nil _ _
    | _ => cases hplain

/-- On BB the bytes of a command are samples. -/
theorem emitCmds_bb {s : State} (hc : s.cfg.chip = .bb) (cs : List Instr) :
    emitCmds cs s = emitSamples (encodeAll cs) s := by
  rw [emitCmds, hc]

theorem encodeAll_singleton (i : Instr) : encodeAll [i] = encode i := List.append_nil _

/-- Settles O9. -/
theorem bbSamplesRun : Obligations.BbSamplesRun := by
  intro s
  refine ⟨fun x hc hm hgives => ?_, fun i he hc hm hgives => ?_, fun x hc => ?_⟩
  · have hexec : exec (.bbSample x) s = .next (finish .d ((emitSamples [x] s).reply fun _ _ => .unit)) := by
      show execBbSample x s = _
      rw [execBbSample, hc]
    rw [hexec, finish_emitSamples hm hgives rfl]
    rfl
  · obtain ⟨hcommand, -, hl⟩ := Instr.emittable_iff.mp he
    obtain ⟨last, hlast⟩ := Option.ne_none_iff_exists'.mp (mt List.getLast?_eq_none_iff.mp (encode_ne_nil hcommand))
    refine ⟨last, hlast, ?_⟩
    rw [exec_command hcommand hl, runCommand, if_pos he, runCmds, emitCmds_bb hc, encodeAll_singleton,
      finish_emitSamples hm hgives hlast]
  · show execBbSample x s = _
    rw [execBbSample, hc]

/-! ### A failed command (R46, R97, R147) -/

/-- The cache when a command's write fails: its group is marked twice over, by the write and by the error. -/
theorem setIndet_trackFail {i : Instr} (t : Ste) :
    (trackFail t i).setIndet (cmdGroup i) true = t.setIndet (cmdGroup i) true := by
  cases i <;> rfl

/-- A failed command that is no clock command leaves the clock of a bridge that understood it. -/
theorem Bridge.broken_clock_fields (p : Params) {mux : Mux} {i : Instr} {b : Bridge} (hu : b.understands mux)
    (h : setsClock i = false) :
    (Bridge.broken p mux [i] b).lowBase = b.lowBase ∧ (Bridge.broken p mux [i] b).divisor = b.divisor := by
  have hloosen : (Bridge.loosen b.havoc b i).lowBase = b.lowBase ∧ (Bridge.loosen b.havoc b i).divisor = b.divisor := by
    unfold Bridge.loosen
    split
    · exact ⟨rfl, rfl⟩
    · split
      · cases h
      · cases h
      · cases h
      · exact ⟨rfl, rfl⟩
      · exact ⟨rfl, rfl⟩
      · exact ⟨rfl, rfl⟩
      · exact ⟨rfl, rfl⟩
  simpa only [Bridge.broken, if_pos hu, List.foldl_cons, List.foldl_nil] using hloosen

/-- Settles O10. -/
theorem failedWriteMarksGroup : Obligations.FailedWriteMarksGroup := by
  intro i s n he hc hgives
  obtain ⟨hcommand, -, hl⟩ := Instr.emittable_iff.mp he
  obtain ⟨hrate, haligned⟩ := Bridge.broken_spec s.cfg s.ste.mux [i] s.bridge
  refine ⟨(Bridge.broken s.cfg s.ste.mux [i] s.bridge).lostPins (cmdGroup i), ?_, ?_, fun hr hclock => ?_, ?_⟩
  · rw [Bridge.lostPins_aligned, haligned]
  · rw [Bridge.lostPins_rate, hrate]
  · rw [Bridge.lostPins_lowBase, Bridge.lostPins_divisor]
    exact Bridge.broken_clock_fields s.cfg hr.2 hclock
  · have hexec : exec i s
        = .next (s.ran [.wr (encode i) n false] (s.ste.setIndet (cmdGroup i) true)
            ((Bridge.broken s.cfg s.ste.mux [i] s.bridge).lostPins (cmdGroup i)) s.bufs (.failed (.transport (.write n)))) := by
      rw [exec_command hcommand hl, runCommand, if_pos he, runCmds,
        emitCmds_fails hc (encodeAll_singleton i) hgives, Res.reply_err, finish_err, State.raise_of_transport rfl,
        ← setIndet_trackFail]
      simp only [State.struck, State.went_cfg, hc, State.went_withSte, State.went_withBridge, State.went_addResult]
      rfl
    rw [hexec]
    cases i <;> rfl

end Sys2Proof.Machine
end

section
/-! PROOF. Statements that are the definitions read out: the words, the control requests, the reset state, one step, the cache
after a list of sets, and the two transport loops. -/

namespace Sys2Proof.Machine

/-- Settles O13. -/
theorem wordsDecode : Obligations.WordsDecode := ⟨rfl, rfl, rfl, rfl, rfl, rfl, rfl, rfl, rfl⟩

/-! ### Control requests (R74) -/

/-- A control request that succeeds, run alone. -/
theorem runCtrl_did {s : State} {q : CtrlReq} (h : s.gives [.did q]) :
    runCtrl q s = .next (s.ran [.did q] (ctrlSte s.cfg.chip q s.ste) (Bridge.control q s.bridge) s.bufs .done) := by
  rw [runCtrl, ctrl_did h, Res.reply_ok, finish_ok, State.went_addResult]

theorem ctrlSte_syncBb (chip : Chip) (m : Byte) (t : Ste) :
    ctrlSte chip (.setBitmode m .syncBb) t
      = match chip with
        | .cmd => { t with mux := .syncBb }
        | .bb => { t with mux := .syncBb, bbdir := m, grpD := { t.grpD with dir := m } } := by cases chip <;> rfl

/-- SET_BITMODE with the mask R74 gives its mode. -/
theorem exec_setBitmode {mask : Byte} {mode : BitMode} (h : mode = .syncBb ∨ mask = 0) (s : State) :
    exec (.setBitmode mask mode) s = runCtrl (.setBitmode mask mode) s := if_pos h

theorem exec_setBitmode_bad {mask : Byte} {mode : BitMode} (h : ¬(mode = .syncBb ∨ mask = 0)) (s : State) :
    exec (.setBitmode mask mode) s = .refused .badOperand := if_neg h

/-- Settles O14. -/
theorem controlRuns : Obligations.ControlRuns := by
  refine ⟨⟨rfl, rfl, rfl⟩, fun s => ⟨fun h => ⟨_, rfl, rfl, runCtrl_did h⟩, fun h => runCtrl_did h, fun h => ?_, fun h => ?_,
    fun m hm => ⟨?_, ?_⟩, fun m h => ?_, fun r => ⟨fun hm h => ?_, fun hm => if_neg hm⟩⟩⟩
  · exact (exec_setBitmode (.inr rfl) s).trans (runCtrl_did h)
  · exact (exec_setBitmode (.inr rfl) s).trans (runCtrl_did h)
  · exact exec_setBitmode_bad (mode := .reset) (fun h => h.elim nofun hm) s
  · exact exec_setBitmode_bad (mode := .cmdStream) (fun h => h.elim nofun hm) s
  · rw [exec_setBitmode (.inl rfl), runCtrl_did h, ctrlSte_syncBb]
    rfl
  · exact (if_pos hm).trans (runCtrl_did h)

/-! ### Reset (R27, R159) -/

/-- Settles O25. -/
theorem resetValues : Obligations.ResetValues := ⟨rfl, rfl, rfl, rfl, rfl, rfl, rfl, rfl, rfl, rfl, rfl⟩

theorem resetWith_pinsTracked (p : Params) : (State.resetWith p).pinsTracked := by
  cases hc : p.chip with
  | cmd => exact (State.pinsTracked_cmd hc).mpr fun ha => absurd ha Bool.false_ne_true
  | bb => exact (State.pinsTracked_bb hc).mpr fun hdev => absurd hdev nofun

/-- Settles O58. -/
theorem resetInvariants : Obligations.ResetInvariants :=
  ⟨fun p => ⟨rfl, ⟨nofun, nofun, nofun, rfl, rfl, fun _ => rfl⟩, ⟨nofun, nofun, nofun⟩, ⟨fun _ => rfl, nofun⟩,
    resetWith_pinsTracked p⟩, rfl⟩

/-! ### One step (R50, R57, R70) -/

theorem step_bad {s : State} (h : s.cfg.ok = false) : step s = .refused .badParams := if_neg (Bool.eq_false_iff.mp h)

/-- With parameters R8 allows, a step does what it has fetched. -/
theorem step_eq_fetch {s : State} (h : s.cfg.ok = true) :
    step s = match fetch s with | .idle => .next s | .instr i s' => exec i s' | .stop r => .refused r := if_pos h

theorem step_instr {s s' : State} {i : Instr} (h : s.cfg.ok = true) (hf : fetch s = .instr i s') : step s = exec i s' := by
  rw [step_eq_fetch h, hf]

theorem step_stop {s : State} {r : Refusal} (h : s.cfg.ok = true) (hf : fetch s = .stop r) : step s = .refused r := by
  rw [step_eq_fetch h, hf]

theorem putBack_eq (f : List Byte → Bench) (rest : List Byte) (bench : List Bench) :
    putBack f rest bench = if rest = [] then bench else f rest :: bench := by
  cases rest <;> rfl

/-- What is fetched from bytes on the bench is what their stream's decoder reads. -/
theorem fetch_bytes {s : State} {bs : List Byte} {more : List Bench} (hb : s.bench = .bytes bs :: more) :
    fetch s = fetchDecoded (decodeFor s.cfg.chip bs) .bytes more s := by rw [fetch, hb]

theorem fetch_response {s : State} {bs : List Byte} {more : List Bench} (hb : s.bench = .response bs :: more) :
    fetch s = fetchDecoded (decodeResponse bs) .response more s := by rw [fetch, hb]

theorem fetchDecoded_ok {d : Decoded} {i : Instr} {rest : List Byte} (h : d = .ok (i, rest)) (f : List Byte → Bench)
    (bench : List Bench) (s : State) :
    fetchDecoded d f bench s = .instr i { s with bench := if rest = [] then bench else f rest :: bench } := by
  rw [h, ← putBack_eq]
  rfl

theorem fetchDecoded_error {d : Decoded} {e : DecodeError} (h : d = .error e) (f : List Byte → Bench) (bench : List Bench)
    (s : State) : fetchDecoded d f bench s = .stop (.undecodable e) := by
  rw [h]
  rfl

/-- Settles O54, by what stands on the bench. -/
theorem stepRunsDecoded : Obligations.StepRunsDecoded := by
  refine fun s => ⟨step_bad, fun hok => ⟨fun bs more rest i hc hb hd => ?_, fun bs more e hc hb hd => ?_,
    fun bs more rest i hc hb hd => ?_, fun bs more e hc hb hd => ?_, fun bs more rest i hb hd => ?_,
    fun bs more e hb hd => ?_, fun i more hb => ?_, fun i more hb hcalls hreq => ?_, fun i more hb hcalls hreq => ?_,
    fun hb hcalls => ?_⟩⟩
  · exact step_instr hok ((fetch_bytes hb).trans (fetchDecoded_ok (by rw [hc]; exact hd) _ _ _))
  · exact step_stop hok ((fetch_bytes hb).trans (fetchDecoded_error (by rw [hc]; exact hd) _ _ _))
  · exact step_instr hok ((fetch_bytes hb).trans (fetchDecoded_ok (by rw [hc]; exact hd) _ _ _))
  · exact step_stop hok ((fetch_bytes hb).trans (fetchDecoded_error (by rw [hc]; exact hd) _ _ _))
  · exact step_instr hok ((fetch_response hb).trans (fetchDecoded_ok hd _ _ _))
  · exact step_stop hok ((fetch_response hb).trans (fetchDecoded_error hd _ _ _))
  · exact step_instr hok (by rw [fetch, hb])
  · exact step_instr hok (by rw [fetch, hb, hcalls]; exact if_pos hreq)
  · exact step_stop hok (by rw [fetch, hb, hcalls]; exact if_neg (Bool.eq_false_iff.mp hreq))
  · rw [step_eq_fetch hok, fetch, hb, hcalls]

/-! ### The cache after a list of commands (R97) -/

/-- A command that is no set of group D leaves its cache. -/
theorem trackSet_grpD {i : Instr} (h : ∀ v d, i ≠ .setBitsLow v d) (t : Ste) : (trackSet t i).grpD = t.grpD := by
  cases i with
  | setBitsLow v d => exact absurd rfl (h v d)
  | _ => rfl

/-- A command that is no set of group C leaves its cache. -/
theorem trackSet_grpC {i : Instr} (h : ∀ v d, i ≠ .setBitsHigh v d) (t : Ste) : (trackSet t i).grpC = t.grpC := by
  cases i with
  | setBitsHigh v d => exact absurd rfl (h v d)
  | _ => rfl

theorem trackSets_grpD {cs : List Instr} (h : ∀ v d, Instr.setBitsLow v d ∉ cs) (t : Ste) :
    (trackSets cs t).grpD = t.grpD := by
  induction cs generalizing t with
  | nil => rfl
  | cons i cs ih =>
    have hi : ∀ v d, i ≠ .setBitsLow v d := fun v d hi => h v d (hi ▸ List.mem_cons_self)
    exact (ih (fun v d hmem => h v d (List.mem_cons_of_mem _ hmem)) _).trans (trackSet_grpD hi t)

theorem trackSets_grpC {cs : List Instr} (h : ∀ v d, Instr.setBitsHigh v d ∉ cs) (t : Ste) :
    (trackSets cs t).grpC = t.grpC := by
  induction cs generalizing t with
  | nil => rfl
  | cons i cs ih =>
    have hi : ∀ v d, i ≠ .setBitsHigh v d := fun v d hi => h v d (hi ▸ List.mem_cons_self)
    exact (ih (fun v d hmem => h v d (List.mem_cons_of_mem _ hmem)) _).trans (trackSet_grpC hi t)

/-- Settles O52. -/
theorem cacheTracksLastSet : Obligations.CacheTracksLastSet := by
  refine fun cs t => ⟨?_, ?_, fun h => trackSets_grpD h t, fun h => trackSets_grpC h t⟩
  · rintro pre val dir post rfl hpost
    rw [trackSets_append]
    exact trackSets_grpD (cs := post) hpost _
  · rintro pre val dir post rfl hpost
    rw [trackSets_append]
    exact trackSets_grpC (cs := post) hpost _

/-! ### The transport loops (R80, R82) -/

/-- The transfers of bytes accepted in full are the bytes, cut into slices of 1 to `xfer` bytes. -/
theorem slices_spec {xfer : Nat} (hx : 1 ≤ xfer) (fuel : Nat) (bs : List Byte) (h : bs.length ≤ fuel) :
    (∀ x ∈ slices xfer fuel bs, 1 ≤ x.length ∧ x.length ≤ xfer) ∧ (slices xfer fuel bs).flatten = bs := by
  induction fuel generalizing bs with
  | zero =>
    obtain rfl := List.length_eq_zero_iff.mp (Nat.le_zero.mp h)
    exact ⟨nofun, rfl⟩
  | succ fuel ih =>
    cases bs with
    | nil => exact ⟨nofun, rfl⟩
    | cons b bs =>
      have hdrop : ((b :: bs).drop xfer).length ≤ fuel := by
        rw [List.length_drop]
        omega
      obtain ⟨hsizes, hjoin⟩ := ih _ hdrop
      refine ⟨List.forall_mem_cons.mpr ⟨?_, hsizes⟩, ?_⟩
      · rw [List.length_take, List.length_cons]
        omega
      · rw [slices, List.flatten_cons, hjoin, List.take_append_drop]

/-- Every transfer of a write has 1 to `xfer` bytes. -/
theorem usbWriteAll_calls {xfer : Nat} (hx : 1 ≤ xfer) (as : List (Nat × Bool)) (bs : List Byte) :
    ∀ x ∈ (usbWriteAll xfer as bs).calls, 1 ≤ x.length ∧ x.length ≤ xfer := by
  induction as generalizing bs with
  | nil =>
    cases bs with
    | nil => exact nofun
    | cons b bs => exact (slices_spec hx _ (b :: bs) le_rfl).1
  | cons a as ih =>
    cases bs with
    | nil => exact nofun
    | cons b bs =>
      have hfirst : 1 ≤ ((b :: bs).take (min xfer (b :: bs).length)).length
          ∧ ((b :: bs).take (min xfer (b :: bs).length)).length ≤ xfer := by
        rw [List.length_take, List.length_cons]
        omega
      obtain ⟨k, ok⟩ := a
      cases ok with
      | true => exact List.forall_mem_cons.mpr ⟨hfirst, ih _⟩
      | false => exact List.forall_mem_cons.mpr ⟨hfirst, nofun⟩

/-- Where every transfer is accepted in full, they are the bytes in order. -/
theorem usbWriteAll_full {xfer : Nat} (hx : 1 ≤ xfer) {as : List (Nat × Bool)} (h : ∀ a ∈ as, a.2 = true ∧ xfer ≤ a.1)
    (bs : List Byte) : (usbWriteAll xfer as bs).ok = true ∧ (usbWriteAll xfer as bs).calls.flatten = bs := by
  induction as generalizing bs with
  | nil =>
    cases bs with
    | nil => exact ⟨rfl, rfl⟩
    | cons b bs => exact ⟨rfl, (slices_spec hx _ (b :: bs) le_rfl).2⟩
  | cons a as ih =>
    cases bs with
    | nil => exact ⟨rfl, rfl⟩
    | cons b bs =>
      obtain ⟨⟨hok, hall⟩, has⟩ := List.forall_mem_cons.mp h
      obtain ⟨k, ok⟩ := a
      obtain rfl : ok = true := hok
      have hk : min k (min xfer (b :: bs).length) = min xfer (b :: bs).length := by
        have : xfer ≤ k := hall
        omega
      simp only [usbWriteAll, if_true, hk]
      obtain ⟨hok, hjoin⟩ := ih has ((b :: bs).drop (min xfer (b :: bs).length))
      exact ⟨hok, by rw [List.flatten_cons, hjoin, List.take_append_drop]⟩

/-- A read that got all of it has succeeded (R82). -/
theorem usbReadAll_ok_of_length (ra : Nat) (tail : List Byte) (ts : List Turn) (want : Nat)
    (h : (usbReadAll ra tail ts want).got.length = want) : (usbReadAll ra tail ts want).status = .ok := by
  induction ts generalizing want with
  | nil =>
    cases want with
    | zero => rfl
    | succ w =>
      simp only [usbReadAll, List.length_take] at h ⊢
      exact if_pos (by omega)
  | cons t ts ih =>
    cases want with
    | zero => rfl
    | succ w =>
      simp only [usbReadAll] at h ⊢
      split at h
      next => simp at h
      next hcancel =>
        split at h
        next => simp at h
        next bs hbs =>
          have hlen := readAvailable_length hbs
          simp only [List.length_append] at h
          rw [if_neg hcancel]
          exact ih _ (by omega)

/-- Settles O53. -/
theorem transportLoops : Obligations.TransportLoops := by
  refine ⟨fun xfer as bs hx => ?_, fun ra tail ts want => ?_⟩
  · obtain ⟨hle, hall⟩ := usbWriteAll_spec xfer as bs
    exact ⟨usbWriteAll_calls hx as bs, hle, hall, fun h => usbWriteAll_full hx h bs⟩
  · obtain ⟨hle, hall⟩ := usbReadAll_spec ra tail ts want
    exact ⟨hle, hall, usbReadAll_ok_of_length ra tail ts want⟩

end Sys2Proof.Machine
end

section
/-! PROOF. The composites run alone (R78): each is one write of its sequence, whose effect on the cache and on the bridge is
said of the sequence. What is left is its bytes, written out with the pins of R72. -/

namespace Sys2Proof.Machine

/-! ### The line values, written out (R23, R122) -/

theorem spiMask_eq (c : SpiConn) : spiMask c = 0x01 ||| 0x02 ||| (if c.nocs then 0 else 0x08) := by
  unfold spiMask
  cases c.nocs <;> rfl

theorem spiDir_eq (c : SpiConn) (g : Group) :
    spiDir c g = (g.dir ||| (0x01 ||| 0x02 ||| (if c.nocs then 0 else 0x08))) &&& ~~~0x04 := by rw [spiDir, spiMask_eq]

theorem spiIdle_eq (c : SpiConn) (g : Group) :
    spiIdle c g = (g.val &&& ~~~(0x01 ||| 0x02 ||| (if c.nocs then 0 else 0x08))) ||| (if c.cpol then 0x01 else 0)
      ||| (if c.nocs then 0 else 0x08) := by
  rw [spiIdle, spiMask_eq]
  cases c.nocs <;> rfl

theorem spiAssert_eq (c : SpiConn) (g : Group) :
    spiAssert c g = spiIdle c g &&& ~~~(if c.nocs then 0 else 0x08 : Byte) := by
  rw [spiAssert]
  cases c.nocs <;> rfl

theorem i2cDir_eq (g : Group) : i2cDir g = (g.dir ||| 0x03) &&& ~~~0x04 := rfl

/-- SDA released and SCL low. -/
theorem i2cVal_released (g : Group) : i2cVal g false true = (g.val &&& ~~~0x03) ||| 0x02 := by
  have h : i2cVal g false true = (g.val &&& ~~~0x03) ||| 0#8 ||| 0x02 := rfl
  rw [h, BitVec.or_zero]

/-! ### One write -/

theorem composite_cmds {s : State} {cs : List Instr} {bs : List Byte} {body : State → Res Unit} (ho : s.ste.dev = .opened)
    (hbody : body s = emitCmds cs s) (hr : s.ready) (hb : encodeAll cs = bs) (h : s.gives [.sent bs]) :
    composite body s
      = .next (s.ran [.sent bs] (trackSets cs s.ste) (cs.foldl Bridge.command s.bridge) s.bufs .done) := by
  rw [composite_open ho, hbody]
  exact runCmds_sent (g := .d) hr hb h

theorem withSpi_cmds {s : State} {c : SpiConn} {cs : List Instr} {bs : List Byte} {body : SpiConn → State → Res Unit}
    (ho : s.ste.dev = .opened) (hspi : s.ste.spi = some c) (hbody : body c s = emitCmds cs s) (hr : s.ready)
    (hb : encodeAll cs = bs) (h : s.gives [.sent bs]) :
    withSpi body s
      = .next (s.ran [.sent bs] (trackSets cs s.ste) (cs.foldl Bridge.command s.bridge) s.bufs .done) := by
  rw [withSpi_some ho hspi, hbody]
  exact runCmds_sent (g := .d) hr hb h

theorem withSpi_not_open {s : State} (h : s.ste.dev ≠ .opened) (body : SpiConn → State → Res Unit) :
    withSpi body s = .next (s.ran [] s.ste s.bridge s.bufs (.failed .notOpen)) := composite_not_open h _

/-- A packet that is not valid raises its error, with nothing done (R53). -/
theorem withSpi_invalid {s : State} {p : Packet} {e : Err} (ho : s.ste.dev = .opened) (hspi : s.ste.spi ≠ none)
    (hp : packetError p = some e) (body : SpiConn → State → Res Unit) :
    withSpi (fun c => onValid p (body c)) s = .next (s.ran [] s.ste s.bridge s.bufs (.failed e)) := by
  obtain ⟨c, hc⟩ := Option.ne_none_iff_exists'.mp hspi
  have he : e.isTransport = false := decide_eq_false (packetError_class hp)
  rw [withSpi_some ho hc, onValid_err hp, Res.reply_err, finish_err, State.raise_eq_ran he]

/-! ### SPI_HEADER and SPI_TRAILER (R104) -/

theorem spiHeader_last (c : SpiConn) (g : Group) :
    (spiIdle c g :: if c.nocs then [] else [spiAssert c g]).getLast?
      = some (if c.nocs then spiIdle c g else spiAssert c g) := by
  cases c.nocs <;> rfl

theorem encodeAll_spiHeaderSeq (c : SpiConn) (g : Group) :
    encodeAll (spiHeaderSeq c g)
      = [0x80, spiIdle c g, spiDir c g] ++ (if c.nocs then [] else [0x80, spiAssert c g, spiDir c g]) := by
  rw [spiHeaderSeq_sets, encodeAll_setsLow]
  cases c.nocs <;> rfl

theorem encodeAll_spiTrailerSeq (c : SpiConn) (g : Group) :
    encodeAll (spiTrailerSeq c g) = if c.nocs then [] else [0x80, spiIdle c g, spiDir c g] := by
  rw [spiTrailerSeq_sets, encodeAll_setsLow]
  cases c.nocs <;> rfl

theorem exec_spiHeader {s : State} {c : SpiConn} (hr : s.ready) (ho : s.ste.dev = .opened) (hspi : s.ste.spi = some c)
    {bs : List Byte} (hb : encodeAll (spiHeaderSeq c s.ste.grpD) = bs) (h : s.gives [.sent bs]) :
    exec .spiHeader s
      = .next (s.ran [.sent bs]
          { s.ste with
            grpD :=
              { dir := spiDir c s.ste.grpD
                val := if c.nocs then spiIdle c s.ste.grpD else spiAssert c s.ste.grpD
                indet := false } }
          { s.bridge with
            latchD := if c.nocs then spiIdle c s.ste.grpD else spiAssert c s.ste.grpD
            dirD := spiDir c s.ste.grpD } s.bufs .done) := by
  have hlast := spiHeader_last c s.ste.grpD
  refine (withSpi_cmds ho hspi rfl hr hb h).trans ?_
  rw [spiHeaderSeq_sets, trackSets_setsLow _ hlast, foldl_setsLow _ hlast]

theorem exec_spiTrailer {s : State} {c : SpiConn} (hr : s.ready) (ho : s.ste.dev = .opened) (hspi : s.ste.spi = some c)
    (hcs : c.nocs = false) {bs : List Byte} (hb : encodeAll (spiTrailerSeq c s.ste.grpD) = bs) (h : s.gives [.sent bs]) :
    exec .spiTrailer s
      = .next (s.ran [.sent bs]
          { s.ste with grpD := { dir := spiDir c s.ste.grpD, val := spiIdle c s.ste.grpD, indet := false } }
          { s.bridge with latchD := spiIdle c s.ste.grpD, dirD := spiDir c s.ste.grpD } s.bufs .done) := by
  have hbody : (if c.nocs then .ok () s else emitCmds (spiTrailerSeq c s.ste.grpD) s)
      = emitCmds (spiTrailerSeq c s.ste.grpD) s := if_neg (Bool.eq_false_iff.mp hcs)
  refine (withSpi_cmds ho hspi hbody hr hb h).trans ?_
  have hsets : spiTrailerSeq c s.ste.grpD = setsLow (spiDir c s.ste.grpD) [spiIdle c s.ste.grpD] := by
    rw [spiTrailerSeq_sets, if_neg (Bool.eq_false_iff.mp hcs)]
  rw [hsets, trackSets_setsLow (v := spiIdle c s.ste.grpD) _ rfl, foldl_setsLow (v := spiIdle c s.ste.grpD) _ rfl]

/-- With NO_CS the trailer is empty, and nothing is written. -/
theorem exec_spiTrailer_nocs {s : State} {c : SpiConn} (ho : s.ste.dev = .opened) (hspi : s.ste.spi = some c)
    (hcs : c.nocs = true) : exec .spiTrailer s = .next (s.ran [] s.ste s.bridge s.bufs .done) := by
  show withSpi _ s = _
  rw [withSpi_some ho hspi, if_pos hcs, Res.reply_ok, finish_ok, ← State.went_addResult, State.went_nil]

/-- Settles O15. -/
theorem spiFrameRuns : Obligations.SpiFrameRuns := by
  refine fun s => ⟨fun c hr ho hspi => ?_, fun i hi => ?_⟩
  · intro g mask dir idle assert header trailer set
    have hdir : spiDir c s.ste.grpD = dir := spiDir_eq c g
    have hidle : spiIdle c s.ste.grpD = idle := spiIdle_eq c g
    have hassert : spiAssert c s.ste.grpD = assert := by rw [spiAssert_eq, hidle]
    refine ⟨fun hgives => ?_, ?_⟩
    · have hb : encodeAll (spiHeaderSeq c s.ste.grpD) = header := by rw [encodeAll_spiHeaderSeq, hidle, hassert, hdir]
      rw [exec_spiHeader hr ho hspi hb hgives, hidle, hassert, hdir]
    · cases hcs : c.nocs with
      | true => exact exec_spiTrailer_nocs ho hspi hcs
      | false =>
        intro hgives
        have hb : encodeAll (spiTrailerSeq c s.ste.grpD) = trailer := by
          rw [encodeAll_spiTrailerSeq, hcs, hidle, hdir]
          rfl
        rw [exec_spiTrailer hr ho hspi hcs hb hgives, hidle, hdir]
  · rcases List.mem_pair.mp hi with rfl | rfl
    · exact ⟨fun h => withSpi_not_open h _, fun ho h => withSpi_none ho h _⟩
    · exact ⟨fun h => withSpi_not_open h _, fun ho h => withSpi_none ho h _⟩

/-! ### CHUNK_CMD (R106) -/

/-- The opcode of a chunk, written out (R59). -/
theorem chunkSel_opcode (c : SpiConn) (reads : Bool) :
    (chunkSel c reads).opcode
      = 0x10 ||| (if c.cpol = c.cpha then 0x01 else 0) ||| (if c.lsbf then 0x08 else 0)
        ||| (if reads then 0x20 ||| (if c.cpol = c.cpha then 0 else 0x04) else 0) := by
  have hbits : ∀ cpol cpha lsb reads : Bool, (transferSel true reads (cpol == cpha) (!(cpol == cpha)) lsb false).opcode
      = 0x10 ||| (if cpol = cpha then 0x01 else 0) ||| (if lsb then 0x08 else 0)
        ||| (if reads then 0x20 ||| (if cpol = cpha then 0 else 0x04) else 0) := by decide
  exact hbits ..

theorem hasR_eq (p : Packet) : hasR p = !p.r.isEmpty := by
  unfold hasR
  cases p.r <;> rfl

theorem chunkSrc_eq (p : Packet) : chunkSrc p p.r = if p.w.isEmpty then p.r else p.w := by
  unfold chunkSrc hasW
  cases p.w <;> rfl

/-- The bytes of a chunk, its length written out. -/
theorem encodeAll_chunk {c : SpiConn} {chunk : Nat} {p : Packet} {r : List Byte} (k : Nat) (hp : packetError p = none)
    (hr : r.length = p.r.length) :
    encodeAll (chunkSeq c chunk p r k)
      = (chunkSel c (hasR p)).opcode :: field16 (chunkLen chunk p k - 1) ++ chunkData chunk p r k
          ++ (if hasR p then [0x87] else []) := by
  have hlen : (chunkData chunk p r k).length = chunkLen chunk p k := memRead_chunk_length (chunkSrc_length hp hr)
  rw [encodeAll_chunkSeq, hlen]

theorem exec_chunkCmd {s : State} {c : SpiConn} {p : Packet} {k : Nat} (hr : s.ready) (ho : s.ste.dev = .opened)
    (hspi : s.ste.spi = some c) (hp : packetError p = none) (hk : k < chunkCount s.cfg.pChunk p) {bs : List Byte}
    (hb : encodeAll (chunkSeq c s.cfg.pChunk p p.r k) = bs) (h : s.gives [.sent bs]) :
    exec (.chunkCmd p k) s
      = .next (s.ran [.sent bs] s.ste (chunkBridge c (hasR p) (chunkData s.cfg.pChunk p p.r k) s.bridge) s.bufs .done) := by
  have hhas : ¬(s.ste.dev = .opened ∧ s.ste.spi.isSome = true ∧ packetError p = none ∧ chunkCount s.cfg.pChunk p ≤ k) :=
    fun hnone => absurd hk (Nat.not_lt.mpr hnone.2.2.2)
  have hbody := onValid_ok hp (fun s => emitCmds (chunkSeq c s.cfg.pChunk p p.r k) s) s
  refine (if_neg hhas).trans ((withSpi_cmds ho hspi hbody hr hb h).trans ?_)
  rw [trackSets_chunkSeq, foldl_chunkSeq]

/-- The checks of CHUNK_CMD come before the chunk it names. -/
theorem exec_chunkCmd_checks {s : State} {p : Packet} {k : Nat}
    (h : ¬(s.ste.dev = .opened ∧ s.ste.spi.isSome = true ∧ packetError p = none)) :
    exec (.chunkCmd p k) s = withSpi (fun c => onValid p fun s => emitCmds (chunkSeq c s.cfg.pChunk p p.r k) s) s :=
  if_neg fun ⟨ho, hspi, hp, _⟩ => h ⟨ho, hspi, hp⟩

/-- Settles O16. -/
theorem chunkCmdRuns : Obligations.ChunkCmdRuns := by
  refine fun s p k => ⟨fun c hr ho hspi hp hchunk => ?_, fun h => ?_, fun ho h => ?_, fun e ho hspi hp => ?_⟩
  · intro n len reads op data order bytes
    have hreads : hasR p = reads := hasR_eq p
    have hdata : chunkData s.cfg.pChunk p p.r k = data := by rw [chunkData, chunkSrc_eq]; rfl
    have hlen : data.length = len := hdata ▸ memRead_chunk_length (chunkSrc_length hp rfl)
    have hcount : chunkCount s.cfg.pChunk p ≤ k ↔ n ≤ k * s.cfg.pChunk := by
      rw [Nat.mul_comm]
      exact ceilDiv_le_iff hchunk
    refine ⟨fun hk hgives => ?_, fun hk => if_pos ⟨ho, by rw [hspi]; rfl, hp, hcount.mpr hk⟩⟩
    have hb : encodeAll (chunkSeq c s.cfg.pChunk p p.r k) = bytes := by
      rw [encodeAll_chunk k hp rfl, chunkSel_opcode, field16_mod, hreads, hdata]
      rfl
    have horder : shiftOrder c.lsbf = fun x => order.map x.getLsbD := funext (shiftOrder_eq c.lsbf)
    rw [exec_chunkCmd hr ho hspi hp (Nat.lt_of_not_le (mt hcount.mp (Nat.not_le.mpr hk))) hb hgives, chunkBridge, hreads,
      hdata, hlen, horder]
  · exact (exec_chunkCmd_checks fun hall => h hall.1).trans (withSpi_not_open h _)
  · refine (exec_chunkCmd_checks fun hall => ?_).trans (withSpi_none ho h _)
    rw [h] at hall
    exact absurd hall.2.1 Bool.false_ne_true
  · refine (exec_chunkCmd_checks fun hall => ?_).trans (withSpi_invalid ho hspi hp _)
    rw [hp] at hall
    exact absurd hall.2.2 nofun

/-! ### CLOCK_CMDS and PROBE (R91, R93) -/

theorem encodeAll_clockSeq (low : Bool) (d : Nat) :
    encodeAll (clockSeq low d)
      = [if low then 0x8B else 0x8A, 0x86, BitVec.ofNat 8 ((d - 1) % 256), BitVec.ofNat 8 ((d - 1) / 256 % 256)] := by
  have h : encodeAll (clockSeq low d) = (if low then 0x8B else 0x8A) :: 0x86 :: field16 (d - 1) := by cases low <;> rfl
  rw [h, field16_mod]

/-- Settles O17. -/
theorem clockAndProbeRun : Obligations.ClockAndProbeRun := by
  refine ⟨fun low d => ?_, fun x => ?_⟩
  · split
    next hd =>
      intro s hr hgives
      refine (if_pos hd).trans ((runCmds_sent hr (encodeAll_clockSeq low d) hgives).trans ?_)
      rw [trackSets_clockSeq, foldl_clockSeq]
      rfl
    next hd => exact fun s => if_neg hd
  · split
    next hx =>
      intro s hr hgives
      have hqueue : ∀ xs ys zs : List Resp, xs ++ (ys ++ zs) = xs ++ ys ++ zs := fun xs ys zs => (List.append_assoc ..).symm
      rcases hx with rfl | rfl
      · refine (runCmds_sent (cs := [.probe1, .sendImmediate]) hr rfl hgives).trans ?_
        simp only [List.foldl_cons, List.foldl_nil, Bridge.command, Instr.shift?, Bridge.plain, Bridge.answer,
          badCmdResponses, hqueue]
        rfl
      · refine (runCmds_sent (cs := [.probe2, .sendImmediate]) hr rfl hgives).trans ?_
        simp only [List.foldl_cons, List.foldl_nil, Bridge.command, Instr.shift?, Bridge.plain, Bridge.answer,
          badCmdResponses, hqueue]
        rfl
    next hx =>
      intro s
      obtain ⟨h1, h2⟩ := not_or.mp hx
      have hprobe : probeInstr x = none := (if_neg h1).trans (if_neg h2)
      show execProbe x s = _
      rw [execProbe, hprobe]

/-! ### The I²C conditions (R126) -/

theorem getLast?_append_replicate {α : Type} {k : Nat} (hk : 1 ≤ k) (xs : List α) (x : α) :
    (xs ++ List.replicate k x).getLast? = some x := by
  have hne : k ≠ 0 := by omega
  rw [List.getLast?_append, List.getLast?_replicate, if_neg hne]
  rfl

/-- A run of sets of group D as a composite: one write, which leaves the last of them. -/
theorem composite_setsLow {s : State} {dir v : Byte} {vals : List Byte} {bs : List Byte} {body : State → Res Unit}
    (ho : s.ste.dev = .opened) (hbody : body s = emitCmds (setsLow dir vals) s) (hr : s.ready)
    (hlast : vals.getLast? = some v) (hb : (vals.flatMap fun v => [0x80, v, dir]) = bs) (h : s.gives [.sent bs]) :
    composite body s
      = .next (s.ran [.sent bs] { s.ste with grpD := { dir := dir, val := v, indet := false } }
          { s.bridge with latchD := v, dirD := dir } s.bufs .done) := by
  rw [composite_cmds ho hbody hr ((encodeAll_setsLow dir vals).trans hb) h, trackSets_setsLow _ hlast, foldl_setsLow _ hlast]

/-- Settles O18. -/
theorem i2cConditionsRun : Obligations.I2cConditionsRun := by
  refine fun s => ⟨fun hr ho hk => ?_, fun h i hi => ?_⟩
  · refine ⟨fun hgives => ?_, fun hgives => ?_, fun hgives => ?_⟩
    · refine composite_setsLow ho (congrArg (emitCmds · s) (i2cStartSeq_sets _ _)) hr (getLast?_append_replicate hk _ _) ?_ hgives
      simp only [List.flatMap_append, List.flatMap_replicate]
      rfl
    · refine composite_setsLow ho (congrArg (emitCmds · s) (i2cStopSeq_sets _ _)) hr (getLast?_append_replicate hk _ _) ?_ hgives
      simp only [List.flatMap_append, List.flatMap_replicate]
      rfl
    · exact composite_setsLow ho (congrArg (emitCmds · s) (i2cIdleSeq_sets _)) hr rfl rfl hgives
  · simp only [List.mem_cons, List.not_mem_nil, or_false] at hi
    rcases hi with rfl | rfl | rfl
    · exact composite_not_open h _
    · exact composite_not_open h _
    · exact composite_not_open h _

/-! ### The byte steps of I²C (R127, R128) -/

theorem encodeAll_i2cWbSeq (g : Group) (x : Byte) :
    encodeAll (i2cWbSeq g x) = [0x11, 0x00, 0x00, x, 0x80, i2cVal g false true, i2cDir g, 0x22, 0x00, 0x87] := by
  have hseq : encodeAll (i2cWbSeq g x)
      = [sel11.opcode, lo8 0, hi8 0, x, 0x80, i2cVal g false true, i2cDir g, sel22.opcode, lo8 0, 0x87] := rfl
  have hop : sel11.opcode = 0x11 ∧ sel22.opcode = 0x22 ∧ lo8 0 = 0x00 ∧ hi8 0 = 0x00 := by decide
  obtain ⟨h11, h22, hlo, hhi⟩ := hop
  rw [hseq, h11, h22, hlo, hhi]

theorem encodeAll_i2cRbSeq (g : Group) (last : Bool) :
    encodeAll (i2cRbSeq g last)
      = [0x20, 0x00, 0x00, 0x13, 0x00, if last then 0xFF else 0x00, 0x80, i2cVal g false true, i2cDir g, 0x87] := by
  have hseq : encodeAll (i2cRbSeq g last) = [sel20.opcode, lo8 0, hi8 0, sel13.opcode, lo8 0,
      if last then 0xFF else 0x00, 0x80, i2cVal g false true, i2cDir g, 0x87] := rfl
  have hop : sel20.opcode = 0x20 ∧ sel13.opcode = 0x13 ∧ lo8 0 = 0x00 ∧ hi8 0 = 0x00 := by decide
  obtain ⟨h20, h13, hlo, hhi⟩ := hop
  rw [hseq, h20, h13, hlo, hhi]

/-- Settles O19. -/
theorem i2cByteStepsRun : Obligations.I2cByteStepsRun := by
  refine fun s => ⟨fun hr ho => ?_, fun h b last i hi => ?_⟩
  · intro g dir released ends
    have hreleased : i2cVal s.ste.grpD false true = released := i2cVal_released g
    have hdir : i2cDir s.ste.grpD = dir := i2cDir_eq g
    refine ⟨?_, ?_⟩
    · intro b bytes hgives
      have hb : encodeAll (i2cWbSeq s.ste.grpD b) = bytes := by rw [encodeAll_i2cWbSeq, hreleased, hdir]
      refine (composite_cmds ho rfl hr hb hgives).trans ?_
      rw [foldl_i2cWbSeq, trackSets_i2cWbSeq, hreleased, hdir, shiftOrder_eq]
      rfl
    · intro last bytes hgives
      have hb : encodeAll (i2cRbSeq s.ste.grpD last) = bytes := by rw [encodeAll_i2cRbSeq, hreleased, hdir]
      refine (composite_cmds ho rfl hr hb hgives).trans ?_
      rw [foldl_i2cRbSeq, trackSets_i2cRbSeq, hreleased, hdir]
  · rcases List.mem_pair.mp hi with rfl | rfl
    · exact composite_not_open h _
    · exact composite_not_open h _

/-! ### BB_FRAME (R116) -/

/-- The frame with the pins, the bit order and the data written out. -/
theorem bbFrameOf_spec (c : SpiConn) (g : Group) (p : Packet) :
    bbFrameOf c g p
      = [spiIdle c g, spiAssert c g]
        ++ ((if p.w.isEmpty then List.replicate p.r.length 0 else p.w).flatMap fun x =>
            (bitOrder c.lsbf).flatMap fun k => bbPair c (spiAssert c g) (x.getLsbD k))
        ++ [spiAssert c g, spiIdle c g] := by
  have hdata : bbData p = if p.w.isEmpty then List.replicate p.r.length 0 else p.w := by
    unfold bbData hasW packetLen
    cases p.w with
    | nil => simp
    | cons x w => rfl
  simp only [bbFrameOf, hdata, shiftOrder_eq, List.flatMap_map]

theorem bbFrameOf_getLast? (c : SpiConn) (g : Group) (p : Packet) : (bbFrameOf c g p).getLast? = some (spiIdle c g) :=
  List.getLast?_append_of_ne_nil _ (List.cons_ne_nil _ _)

theorem bbFrameOf_length_of_valid (c : SpiConn) (g : Group) {p : Packet} (hp : packetError p = none) :
    (bbFrameOf c g p).length = 16 * max p.w.length p.r.length + 4 := by
  rw [bbFrameOf_length, bbData_length hp, packetLen]

theorem exec_bbFrame {s : State} (hc : s.cfg.chip = .bb) (p : Packet) :
    exec (.bbFrame p) s = withSpi (fun c => onValid p fun s => emitSamples (bbFrameOf c s.ste.grpD p) s) s := by
  show execBbFrame p s = _
  rw [execBbFrame, hc]

/-- Settles O20. -/
theorem bbFrameRuns : Obligations.BbFrameRuns := by
  refine ⟨fun c g p => ?_, fun s p hc => ⟨fun c ho hm hspi hp hgives => ?_, fun h => ?_, fun ho h => ?_,
    fun e ho hspi hp => ?_⟩, fun s p hc => ?_⟩
  · intro mask idle assert smp pair order data
    have hidle : spiIdle c g = idle := spiIdle_eq c g
    have hassert : spiAssert c g = assert := by rw [spiAssert_eq, hidle]
    rw [bbFrameOf_spec, hidle, hassert]
    rfl
  · have hlen := bbFrameOf_length_of_valid c s.ste.grpD hp
    refine ⟨hlen, ?_⟩
    rw [exec_bbFrame hc, withSpi_some ho hspi, onValid_ok hp,
      finish_emitSamples hm hgives (bbFrameOf_getLast? c s.ste.grpD p), hlen]
  · rw [exec_bbFrame hc, withSpi_not_open h]
  · rw [exec_bbFrame hc, withSpi_none ho h]
  · rw [exec_bbFrame hc, withSpi_invalid ho hspi hp]
  · show execBbFrame p s = _
    rw [execBbFrame, hc]

end Sys2Proof.Machine
end

section
/-! PROOF. The checks a request makes before any I/O (R53, R100, R138, R144). Each check is one chain of conditions in the order
of the rules; a request whose check fails ends with that error, and nothing else has happened. -/

namespace Sys2Proof.Machine

/-! ### A request that ends with a check's error -/

/-- On an open device a request whose body stops at once with an error that is not the transport's. -/
theorem request_raises {g : GroupId} {body : State → Res Reply} {s : State} {e : Err} (ho : s.ste.dev = .opened)
    (hbody : body s = .err e s) (he : e.isTransport = false) :
    request g body s = .next (s.ran [] s.ste s.bridge s.bufs (.failed e)) := by
  rw [request_open ho, hbody, finish_err, State.raise_eq_ran he]

theorem request_not_open {g : GroupId} {body : State → Res Reply} {s : State} (h : s.ste.dev ≠ .opened) :
    request g body s = .next (s.ran [] s.ste s.bridge s.bufs (.failed .notOpen)) := by
  rw [request, whenOpen, if_neg h, finish_err, State.raise_eq_ran rfl]

theorem isTransport_of_class {e : Err} (h : e.class ≠ .transport) : e.isTransport = false := decide_eq_false h

/-! ### SPI_CONNECT (R51, R100, R114) -/

/-- The first failing check of a connect. -/
def connectError (p : Params) (t : Ste) (f mode bits : Nat) : Option Err :=
  if bits % 8 ≠ 0 then some .bitsNotMultiple8
  else if bits ≠ 8 then some .bitsUnsupported
  else if min f (spiCeiling p) < p.fMin then some .freqTooLow
  else if mode.testBit 2 then some .halfDuplex
  else if 32 ≤ mode then some .modeUnknown
  else if t.usingI2c then some .inUse
  else none

/-- The connection a connect asks for, by the bits of its mode word. -/
def askedConn (p : Params) (f mode : Nat) : SpiConn :=
  ⟨mode.testBit 0, mode.testBit 1, mode.testBit 3, mode.testBit 4, min f (spiCeiling p)⟩

/-- An accepted mode word decomposes into its bits (R51). -/
theorem decomposeMode_bits {mode : Nat} (hhalf : mode.testBit modeHalf = false) (h : mode < 32) :
    decomposeMode mode = .ok ⟨mode.testBit 0, mode.testBit 1, mode.testBit 3, mode.testBit 4⟩ := by
  have hfields : ∀ m < 32, m.testBit modeHalf = false →
      decomposeMode m = .ok ⟨m.testBit 0, m.testBit 1, m.testBit 3, m.testBit 4⟩ := by decide
  exact hfields mode h hhalf

theorem spiCheck_eq (p : Params) (t : Ste) (f mode bits : Nat) :
    spiCheck p t f mode bits
      = match connectError p t f mode bits with
        | some e => .error e
        | none => .ok (askedConn p f mode) := by
  unfold spiCheck connectError checkBits
  by_cases h8 : bits % 8 ≠ 0
  · simp only [if_pos h8]
  by_cases hbits : bits ≠ 8
  · simp only [if_neg h8, if_pos hbits]
  by_cases hfloor : min f (spiCeiling p) < p.fMin
  · simp only [if_neg h8, if_neg hbits, if_pos hfloor]
  simp only [if_neg h8, if_neg hbits, if_neg hfloor]
  cases hhalf : mode.testBit 2 with
  | true => simp only [decomposeMode_halfDuplex hhalf, if_true]
  | false =>
    by_cases hmode : 32 ≤ mode
    · simp only [decomposeMode_modeUnknown hhalf hmode, Bool.false_eq_true, if_false, if_pos hmode]
    · simp only [decomposeMode_bits hhalf (Nat.not_le.mp hmode), Bool.false_eq_true, if_false, if_neg hmode]
      cases t.usingI2c <;> rfl

theorem spiCheck_error {p : Params} {t : Ste} {f mode bits : Nat} {e : Err} (h : connectError p t f mode bits = some e) :
    spiCheck p t f mode bits = .error e := by rw [spiCheck_eq, h]

theorem spiCheck_ok {p : Params} {t : Ste} {f mode bits : Nat} (h : connectError p t f mode bits = none) :
    spiCheck p t f mode bits = .ok (askedConn p f mode) := by rw [spiCheck_eq, h]

theorem spiConnect_of_error {s : State} {f mode bits : Nat} {e : Err} (h : connectError s.cfg s.ste f mode bits = some e) :
    spiConnect f mode bits s = .err e s := by rw [spiConnect, spiCheck_error h]

theorem exec_spiConnect_error {s : State} {f mode bits : Nat} {e : Err} (ho : s.ste.dev = .opened)
    (h : connectError s.cfg s.ste f mode bits = some e) :
    exec (.spiConnect f mode bits) s = .next (s.ran [] s.ste s.bridge s.bufs (.failed e)) :=
  request_raises ho (spiConnect_of_error h) (isTransport_of_class (spiCheck_class (spiCheck_error h)))

/-- Settles O28. -/
theorem connectChecksInOrder : Obligations.ConnectChecksInOrder := by
  intro s f mode bits e ho ceiling h
  have hceiling : ceiling = spiCeiling s.cfg := rfl
  exact exec_spiConnect_error ho (by rw [← h, connectError, hceiling])

/-! ### The packets (R53, R103, R112) -/

/-- The first failing check of a packet, in R53's order. -/
theorem packetError_eq (p : Packet) :
    packetError p
      = if p.keepCs then some .keepCs
        else if p.bits % 8 ≠ 0 then some .bitsNotMultiple8
        else if p.bits ≠ 8 then some .bitsUnsupported
        else if p.w = [] ∧ p.r = [] then some .emptyPacket
        else if p.w ≠ [] ∧ p.r ≠ [] ∧ p.w.length ≠ p.r.length then some .lenMismatch
        else none := by
  unfold packetError checkBits
  by_cases h8 : p.bits % 8 ≠ 0
  · simp only [if_pos h8]
  by_cases hbits : p.bits ≠ 8
  · simp only [if_neg h8, if_pos hbits]
  simp only [if_neg h8, if_neg hbits, List.length_eq_zero_iff, List.length_pos_iff]

theorem packetError_txPacketOf (w r : List Byte) :
    packetError (txPacketOf w r)
      = if w = [] ∧ r = [] then some .emptyPacket
        else if w ≠ [] ∧ r ≠ [] ∧ w.length ≠ r.length then some .lenMismatch
        else none := by
  simp only [packetError_eq, txPacketOf, wordBits]
  rfl

/-- The first error of the first packet that has one. -/
theorem packetsError_append {good : List Packet} (hgood : ∀ p ∈ good, packetError p = none) {bad : Packet} {e : Err}
    (hbad : packetError bad = some e) (rest : List Packet) : packetsError (good ++ bad :: rest) = some e := by
  induction good with
  | nil => simp only [List.nil_append, packetsError, hbad]
  | cons p good ih =>
    obtain ⟨hp, hgood⟩ := List.forall_mem_cons.mp hgood
    simp only [List.cons_append, packetsError, hp, ih hgood]

theorem spiTxPackets_of_error {s : State} {c : SpiConn} {ps : List Packet} {e : Err} (hspi : s.ste.spi = some c)
    (h : packetsError ps = some e) : spiTxPackets ps s = .err e s := by
  simp only [spiTxPackets, hspi, h]

/-- Settles O31. -/
theorem packetsCheckedFirst : Obligations.PacketsCheckedFirst := by
  intro s c e ho hspi
  have hloaded : ∀ rs, (s.loadBufs rs).ste.spi = some c := fun _ => hspi
  refine ⟨fun good bad rest hgood h => ?_, fun w r h => ?_⟩
  · have herr := packetsError_append hgood (h ▸ packetError_eq bad) rest
    refine request_raises (s := s.loadBufs ((good ++ bad :: rest).map Packet.r)) ho ?_
      (isTransport_of_class (packetsError_class herr))
    rw [spiTxPackets_of_error (hloaded _) herr, Res.reply_err]
  · have hbad : packetError (txPacketOf w r) = some e := (packetError_txPacketOf w r).trans h
    have herr := packetsError_append (good := []) nofun hbad []
    refine request_raises (s := s.loadBufs [r]) ho ?_ (isTransport_of_class (packetsError_class herr))
    rw [spiTxPackets_of_error (ps := [txPacketOf w r]) (hloaded _) herr, Res.reply_err]

/-! ### The pins (R73, R138) -/

/-- SPI claims D0 to D2, and D3 unless NO_CS; I²C claims D0 to D2. -/
theorem claimed_d_iff (t : Ste) (i : Fin 8) :
    claimed t .d i = true
      ↔ (t.usingSpi = true ∧ (i.val ≤ 2 ∨ (i.val = 3 ∧ ¬∃ c ∈ t.spi, c.nocs = true)))
        ∨ (t.usingI2c = true ∧ i.val ≤ 2) := by
  cases h : t.spi <;> simp [claimed, h]

theorem onPin_of_error {g : GroupId} {i : Fin 8} {body : State → Res Reply} {s : State} {e : Err}
    (h : pinCheck s.cfg s.ste g i = some e) : onPin g i body s = .err e s := by rw [onPin, h]

theorem onPin_of_none {g : GroupId} {i : Fin 8} {body : State → Res Reply} {s : State}
    (h : pinCheck s.cfg s.ste g i = none) : onPin g i body s = body s := by rw [onPin, h]

/-- Settles O43. -/
theorem pinChecks : Obligations.PinChecks := by
  intro s g i level e ho h q hq
  have hcheck : pinCheck s.cfg s.ste g i = some e := by
    rw [← h, pinCheck]
    cases g with
    | c => simp [claimed]
    | d => simp only [claimed_d_iff, true_and]
  have he := isTransport_of_class (pinCheck_class hcheck)
  simp only [List.mem_cons, List.not_mem_nil, or_false] at hq
  rcases hq with rfl | rfl | rfl <;> exact request_raises ho (onPin_of_error hcheck) he

/-! ### The first checks of every request (R144) -/

theorem onCmd_bb {body : State → Res Reply} {s : State} (hc : s.cfg.chip = .bb) : onCmd body s = .err .notSupported s := by
  rw [onCmd, hc]

theorem onCmd_cmd {body : State → Res Reply} {s : State} (hc : s.cfg.chip = .cmd) : onCmd body s = body s := by
  rw [onCmd, hc]

theorem withI2c_none {body : I2cBus → State → Res Reply} {s : State} (h : s.ste.i2c = none) :
    withI2c body s = .err .notConnected s := by rw [withI2c, h]

theorem withI2c_some {body : I2cBus → State → Res Reply} {s : State} {bus : I2cBus} (h : s.ste.i2c = some bus) :
    withI2c body s = body bus s := by rw [withI2c, h]

theorem spiTxPackets_none {ps : List Packet} {s : State} (h : s.ste.spi = none) :
    spiTxPackets ps s = .err .notConnected s := by
  rw [spiTxPackets, h]

/-- On a device that is not open, every request but DEV_OPEN and DEV_CLOSE. -/
theorem exec_not_open {s : State} {i : Instr} (hi : i.isRequest = true) (hopen : i ≠ .devOpen) (hclose : i ≠ .devClose)
    (h : s.ste.dev ≠ .opened) : exec i s = .next (s.ran [] s.ste s.bridge (ownBufs i s.bufs) (.failed .notOpen)) := by
  cases i with
  | devOpen => exact absurd rfl hopen
  | devClose => exact absurd rfl hclose
  | spiTx w r => exact request_not_open (s := s.loadBufs [r]) h
  | spiTxPackets pkts => exact request_not_open (s := s.loadBufs (pkts.map Packet.r)) h
  | i2cTx addr w r => exact request_not_open (s := s.loadBufs [r]) h
  | spiConnect | spiClose | i2cOpen | i2cSetSpeed | i2cClose | gpioOut | gpioIn | gpioRead => exact request_not_open h
  | _ => cases hi

theorem exec_devOpen_open {s : State} (ho : s.ste.dev = .opened) :
    exec .devOpen s = .next (s.ran [] s.ste s.bridge s.bufs (.failed .inUse)) := by
  show Host.Outcome.next (finishOpen (devOpen s)) = _
  rw [devOpen, if_pos ho, finishOpen_err, ← State.went_addResult, State.went_nil]

theorem exec_i2cOpen_pullup {s : State} (ho : s.ste.dev = .opened) (hc : s.cfg.chip = .cmd) :
    exec (.i2cOpen .pullup) s = .next (s.ran [] s.ste s.bridge s.bufs (.failed .pullupUnsupported)) :=
  request_raises ho (onCmd_cmd hc) rfl

theorem exec_i2cOpen_inUse {s : State} (ho : s.ste.dev = .opened) (hc : s.cfg.chip = .cmd)
    (h : s.ste.usingSpi = true ∨ s.ste.usingI2c = true) :
    exec (.i2cOpen .float) s = .next (s.ran [] s.ste s.bridge s.bufs (.failed .inUse)) :=
  request_raises ho ((onCmd_cmd hc).trans (if_pos (Bool.or_eq_true_iff.mpr h))) rfl

/-- Settles O48, check by check. -/
theorem checksBeforeIo : Obligations.ChecksBeforeIo := by
  refine fun s i => ⟨exec_not_open, fun ho => ⟨?_, ?_, ?_, ?_, ?_, ?_, ?_⟩⟩
  · rintro rfl
    exact exec_devOpen_open ho
  · rintro hc ⟨pull, rate, addr, w, r, hi⟩
    simp only [List.mem_cons, List.not_mem_nil, or_false] at hi
    rcases hi with rfl | rfl | rfl | rfl
    · exact request_raises ho (onCmd_bb hc) rfl
    · exact request_raises ho (onCmd_bb hc) rfl
    · exact request_raises (s := s.loadBufs [r]) ho (onCmd_bb hc) rfl
    · exact request_raises ho (onCmd_bb hc) rfl
  · rintro hspi ⟨w, r, pkts, hi⟩
    have hloaded : ∀ rs, (s.loadBufs rs).ste.spi = none := fun _ => hspi
    simp only [List.mem_cons, List.not_mem_nil, or_false] at hi
    rcases hi with rfl | rfl | rfl
    · refine request_raises (s := s.loadBufs [r]) ho ?_ rfl
      rw [spiTxPackets_none (hloaded _), Res.reply_err]
    · refine request_raises (s := s.loadBufs (pkts.map Packet.r)) ho ?_ rfl
      rw [spiTxPackets_none (hloaded _), Res.reply_err]
    · exact request_raises ho (by rw [spiClose, hspi]) rfl
  · rintro hc hi2c ⟨rate, addr, w, r, hi⟩
    simp only [List.mem_cons, List.not_mem_nil, or_false] at hi
    rcases hi with rfl | rfl | rfl
    · exact request_raises ho ((onCmd_cmd hc).trans (withI2c_none hi2c)) rfl
    · exact request_raises (s := s.loadBufs [r]) ho ((onCmd_cmd (s := s.loadBufs [r]) hc).trans (withI2c_none hi2c)) rfl
    · exact request_raises ho ((onCmd_cmd hc).trans (withI2c_none hi2c)) rfl
  · rintro hc rfl
    exact exec_i2cOpen_pullup ho hc
  · rintro hc rfl h
    exact exec_i2cOpen_inUse ho hc h
  · rintro hc hi2c ⟨addr, w, r, rfl, haddr⟩
    obtain ⟨bus, hbus⟩ := Option.ne_none_iff_exists'.mp hi2c
    exact request_raises (s := s.loadBufs [r]) ho
      ((onCmd_cmd (s := s.loadBufs [r]) hc).trans ((withI2c_some (s := s.loadBufs [r]) hbus).trans (if_pos haddr))) rfl

end Sys2Proof.Machine
end

section
/-! PROOF. The group primitives and the pin requests (R98, R99, R139 to R141): what a group set and a group read do when their
events are given, on each personality. -/

namespace Sys2Proof.Machine

/-! ### Ending a request -/

/-- A request on an open device whose body goes through ends with its value. -/
theorem request_ok {g : GroupId} {body : State → Res Reply} {s : State} {v : Reply} {evs : List Event} {t : Ste} {b : Bridge}
    {rs : List (List Byte)} (ho : s.ste.dev = .opened) (hbody : body s = .ok v (s.went evs t b rs)) :
    request g body s = .next (s.ran evs t b rs ⟨none, v⟩) := by
  rw [request_open ho, hbody, finish_ok, State.went_addResult]

theorem Res.bind_of_ok {α β : Type} {x : Res α} {a : α} {t : State} (h : x = .ok a t) (f : α → State → Res β) :
    x.bind f = f a t := by rw [h, Res.bind_ok]

theorem Res.reply_of_ok {α : Type} {x : Res α} {a : α} {t : State} (h : x = .ok a t) (f : α → State → Reply) :
    x.reply f = .ok (f a t) t := by rw [h, Res.reply_ok]

/-! ### Reading what was returned -/

/-- Reading no more than has been returned takes the oldest of it. -/
theorem Bridge.consume_of_le {n : Nat} {b : Bridge} (h : n ≤ b.sent.length) :
    b.consume n = { b with sent := b.sent.drop n } := by
  rw [Bridge.consume, Nat.sub_eq_zero_of_le h, List.drop_zero]

/-- Reading from a bridge with nothing queued. -/
theorem Bridge.consume_of_queue {n : Nat} {b : Bridge} (h : b.queue = []) :
    b.consume n = { b with sent := b.sent.drop n } := by
  rw [Bridge.consume, h, List.drop_nil, ← h]

/-! ### A group set on BB (R98, R114) -/

/-- The direction request, where the direction differs. -/
abbrev dirEvents (t : Ste) (dir : Byte) : List Event :=
  if dir = t.bbdir then [] else [.did (.setBitmode dir .syncBb)]

theorem bbDirection_did {s : State} {dir : Byte} (hc : s.cfg.chip = .bb) (hm : s.ste.mux = .syncBb)
    (hdir : s.ste.bbdir = s.ste.grpD.dir) (h : s.gives (dirEvents s.ste dir)) :
    bbDirection dir s
      = .ok () (s.went (dirEvents s.ste dir) { s.ste with bbdir := dir, grpD := { s.ste.grpD with dir := dir } }
          { s.bridge with dirD := if dir = s.ste.bbdir then s.bridge.dirD else dir } s.bufs) := by
  unfold bbDirection dirEvents
  by_cases heq : dir = s.ste.bbdir
  · have hgroup : ({ s.ste.grpD with dir := s.ste.bbdir } : Group) = s.ste.grpD := by rw [hdir]
    rw [if_neg (not_not.mpr heq), if_pos heq, if_pos heq, heq, hgroup]
    exact congrArg _ s.went_nil.symm
  · rw [dirEvents, if_neg heq] at h
    have hste : ctrlSte .bb (.setBitmode dir .syncBb) s.ste
        = { s.ste with bbdir := dir, grpD := { s.ste.grpD with dir := dir } } := by
      show ({ s.ste with mux := .syncBb, bbdir := dir, grpD := _ } : Ste) = _
      rw [← hm]
    rw [if_pos heq, if_neg heq, if_neg heq, ctrl_did h, hc, hste]
    rfl

theorem bbGroupSet_did {s : State} {val dir x : Byte} (hc : s.cfg.chip = .bb) (hm : s.ste.mux = .syncBb)
    (hdir : s.ste.bbdir = s.ste.grpD.dir) (h : s.gives (dirEvents s.ste dir ++ [.sent [val], .got [x]])) :
    bbGroupSet val dir s
      = .ok () (s.went (dirEvents s.ste dir ++ [.sent [val], .got [x]])
          { s.ste with bbdir := dir, grpD := { dir := dir, val := val, indet := false } }
          { s.bridge with
            dirD := if dir = s.ste.bbdir then s.bridge.dirD else dir
            latchD := val
            sent := (s.bridge.sent ++ [Resp.sample]).drop 1 } s.bufs) := by
  obtain ⟨hd, h⟩ := (s.gives_append _ _ _ _ _).mp h
  obtain ⟨hw, hr⟩ := (State.gives_cons _ _ _ _ _ _).mp h
  have hmode : ∀ evs b rs,
      (s.went evs { s.ste with bbdir := dir, grpD := { s.ste.grpD with dir := dir } } b rs).ste.mux = .syncBb :=
    fun _ _ _ => hm
  unfold bbGroupSet
  rw [Res.bind_of_ok (bbDirection_did hc hm hdir hd), Res.bind_of_ok (emitSamples_bb (hmode _ _ _) hw rfl),
    Res.bind_of_ok (rd_got (n := 1) hr),
    Bridge.consume_of_le (by simp), State.went_went, State.went_went]
  rfl

/-! ### Group primitives on CMD -/

/-- The command that sets a group. -/
def groupCmd (g : GroupId) (val dir : Byte) : Instr :=
  match g with
  | .d => .setBitsLow val dir
  | .c => .setBitsHigh val dir

theorem groupSet_cmd {g : GroupId} {s : State} (hc : s.cfg.chip = .cmd) (val dir : Byte) :
    groupSet g val dir s = emitCmds [groupCmd g val dir] s := by
  unfold groupSet
  rw [hc]
  cases g <;> rfl

theorem groupSet_bb {g : GroupId} {s : State} (hc : s.cfg.chip = .bb) (val dir : Byte) :
    groupSet g val dir s = bbGroupSet val dir s := by
  unfold groupSet
  rw [hc]

theorem encode_groupCmd (g : GroupId) (val dir : Byte) :
    encode (groupCmd g val dir) = [if g = .d then 0x80 else 0x82, val, dir] := by cases g <;> rfl

theorem trackSet_groupCmd (g : GroupId) (val dir : Byte) (t : Ste) :
    trackSet t (groupCmd g val dir) = t.setGrp g { dir := dir, val := val, indet := false } := by cases g <;> rfl

/-- A group's latches and directions set. -/
def Bridge.setPins (g : GroupId) (val dir : Byte) (b : Bridge) : Bridge :=
  match g with
  | .d => { b with latchD := val, dirD := dir }
  | .c => { b with latchC := val, dirC := dir }

theorem command_groupCmd (g : GroupId) (val dir : Byte) (b : Bridge) :
    b.command (groupCmd g val dir) = b.setPins g val dir := by cases g <;> rfl

/-! ### The pin requests -/

/-- A pin that is not claimed, of a group the personality has, passes the checks. -/
theorem pinCheck_none {p : Params} {t : Ste} {g : GroupId} {i : Fin 8} (hclaim : claimed t g i = false)
    (hbb : p.chip = .bb → g = .d) : pinCheck p t g i = none := by
  have hgroup : ¬(p.chip = .bb ∧ g = .c) := by
    rintro ⟨hc, rfl⟩
    exact absurd (hbb hc) nofun
  rw [pinCheck, if_neg hgroup, hclaim]
  rfl

/-- A pin request on CMD that is one group set. -/
theorem request_groupSet_cmd {s : State} {g : GroupId} {i : Fin 8} {val dir : Byte} {body : State → Res Reply} (hr : s.ready)
    (ho : s.ste.dev = .opened) (hclaim : claimed s.ste g i = false)
    (hbody : body s = (groupSet g val dir s).reply fun _ _ => .unit)
    (h : s.gives [.sent [if g = .d then 0x80 else 0x82, val, dir]]) :
    request g (onPin g i body) s
      = .next (s.ran [.sent [if g = .d then 0x80 else 0x82, val, dir]]
          (s.ste.setGrp g { dir := dir, val := val, indet := false })
          (s.bridge.setPins g val dir) s.bufs .done) := by
  have hnone := pinCheck_none (g := g) hclaim fun hc => absurd (hr.1.symm.trans hc) nofun
  rw [request_open ho, onPin_of_none hnone, hbody, groupSet_cmd hr.1, ← trackSet_groupCmd]
  refine (runCmds_sent (g := g) hr ((encodeAll_singleton _).trans (encode_groupCmd g val dir)) h).trans ?_
  simp only [List.foldl_cons, List.foldl_nil, command_groupCmd]
  rfl

/-- Settles O44. -/
theorem pinSetOnCmd : Obligations.PinSetOnCmd := by
  intro s g i level hr ho hclaim old op ends bit val
  have hval : gpioVal old.val i level = val := rfl
  have hends : ∀ val dir, ends val dir = .next (s.ran [.sent [op, val, dir]]
      (s.ste.setGrp g { dir := dir, val := val, indet := false }) (s.bridge.setPins g val dir) s.bufs .done) := by
    intro val dir
    cases g <;> rfl
  rw [hends, hends]
  exact ⟨fun h => request_groupSet_cmd hr ho hclaim (hval ▸ rfl) h, fun h => request_groupSet_cmd hr ho hclaim rfl h⟩

/-- A pin request on BB that is one group set. -/
theorem request_groupSet_bb {s : State} {i : Fin 8} {val dir x : Byte} {body : State → Res Reply} (hc : s.cfg.chip = .bb)
    (ho : s.ste.dev = .opened) (hm : s.ste.mux = .syncBb) (hdir : s.ste.bbdir = s.ste.grpD.dir)
    (hclaim : claimed s.ste .d i = false) (hbody : body s = (groupSet .d val dir s).reply fun _ _ => .unit)
    (h : s.gives (dirEvents s.ste dir ++ [.sent [val], .got [x]])) :
    request .d (onPin .d i body) s
      = .next (s.ran (dirEvents s.ste dir ++ [.sent [val], .got [x]])
          { s.ste with bbdir := dir, grpD := { dir := dir, val := val, indet := false } }
          { s.bridge with
            dirD := if dir = s.ste.bbdir then s.bridge.dirD else dir
            latchD := val
            sent := (s.bridge.sent ++ [Resp.sample]).drop 1 } s.bufs .done) := by
  refine request_ok ho ?_
  rw [onPin_of_none (pinCheck_none hclaim fun _ => rfl), hbody, groupSet_bb hc,
    Res.reply_of_ok (bbGroupSet_did hc hm hdir h)]

/-- Settles O45. -/
theorem pinSetOnBb : Obligations.PinSetOnBb := by
  intro s i level x hc ho hm hdir hclaim bit evs runs
  exact ⟨fun h => request_groupSet_bb hc ho hm hdir hclaim rfl h, fun h => request_groupSet_bb hc ho hm hdir hclaim rfl h⟩

/-! ### Reading a pin (R99, R141) -/

/-- The commands of a group read. -/
def groupReadSeq (g : GroupId) : List Instr := [match g with | .d => .readBitsLow | .c => .readBitsHigh, .sendImmediate]

theorem encodeAll_groupReadSeq (g : GroupId) :
    encodeAll (groupReadSeq g) = match g with | .d => [0x81, 0x87] | .c => [0x83, 0x87] := by cases g <;> rfl

theorem trackSets_groupReadSeq (g : GroupId) (t : Ste) : trackSets (groupReadSeq g) t = t := by cases g <;> rfl

theorem foldl_groupReadSeq (g : GroupId) (b : Bridge) :
    (groupReadSeq g).foldl Bridge.command b = { b with sent := b.sent ++ b.queue ++ [.pins g], queue := [] } := by
  cases g <;> simp [groupReadSeq, Bridge.command, Instr.shift?, Bridge.plain, Bridge.answer]

theorem groupRead_cmd {g : GroupId} {s : State} (hc : s.cfg.chip = .cmd) :
    groupRead g s = (emitCmds (groupReadSeq g) s).bind fun _ s => (rd 1 s).bind fun r s => .ok (r.headD 0) s := by
  unfold groupRead
  rw [hc]
  cases g <;> rfl

theorem groupRead_bb {g : GroupId} {s : State} (hc : s.cfg.chip = .bb) :
    groupRead g s = (emitSamples [s.ste.grpD.val] s).bind fun _ s => (rd 1 s).bind fun r s => .ok (r.headD 0) s := by
  unfold groupRead
  rw [hc]

theorem groupRead_cmd_did {g : GroupId} {s : State} {x : Byte} {bs : List Byte} (hc : s.cfg.chip = .cmd)
    (hb : encodeAll (groupReadSeq g) = bs) (h : s.gives [.sent bs, .got [x]]) :
    groupRead g s
      = .ok x (s.went [.sent bs, .got [x]] s.ste ((Bridge.feed s.cfg s.ste.mux (groupReadSeq g) s.bridge).consume 1)
          s.bufs) := by
  obtain ⟨hw, hr⟩ := (s.gives_cons _ _ _ _ _).mp h
  rw [groupRead_cmd hc, Res.bind_of_ok (emitCmds_sent hc hb hw), Res.bind_of_ok (rd_got (n := 1) hr), State.went_went,
    trackSets_groupReadSeq]
  rfl

theorem groupRead_bb_did {g : GroupId} {s : State} {x : Byte} (hc : s.cfg.chip = .bb)
    (h : s.gives [.sent [s.ste.grpD.val], .got [x]]) :
    groupRead g s
      = .ok x (s.went [.sent [s.ste.grpD.val], .got [x]] s.ste
          ((Bridge.feedSamples s.ste.mux [s.ste.grpD.val] s.bridge).consume 1) s.bufs) := by
  obtain ⟨hw, hr⟩ := (s.gives_cons _ _ _ _ _).mp h
  rw [groupRead_bb hc, Res.bind_of_ok (emitSamples_sent hw), Res.bind_of_ok (rd_got (n := 1) hr), State.went_went]
  rfl

/-- Settles O46. -/
theorem pinReads : Obligations.PinReads := by
  intro s g i x ho hclaim hbb bytes hgives
  have hnone := pinCheck_none (p := s.cfg) hclaim hbb
  cases hc : s.cfg.chip with
  | cmd =>
    have hb : encodeAll (groupReadSeq g) = bytes := by
      rw [encodeAll_groupReadSeq]
      simp only [bytes, hc]
      cases g <;> rfl
    refine ⟨(Bridge.feed s.cfg s.ste.mux (groupReadSeq g) s.bridge).consume 1, request_ok ho ?_, fun hr => ?_, nofun⟩
    · rw [onPin_of_none hnone, gpioRead, Res.reply_of_ok (groupRead_cmd_did hc hb hgives)]
    · rw [Bridge.feed_ready _ _ hr.2, foldl_groupReadSeq, Bridge.consume_of_queue rfl]
  | bb =>
    have hbytes : bytes = [s.ste.grpD.val] := by simp only [bytes, hc]
    rw [hbytes] at hgives ⊢
    refine ⟨(Bridge.feedSamples s.ste.mux [s.ste.grpD.val] s.bridge).consume 1, request_ok ho ?_, fun hr => ?_, fun _ hm => ?_⟩
    · rw [onPin_of_none hnone, gpioRead, Res.reply_of_ok (groupRead_bb_did hc hgives)]
    · exact absurd (hc.symm.trans hr.1) nofun
    · rw [hm, Bridge.feedSamples, if_pos rfl, Bridge.consume_of_le (by simp)]
      rfl

end Sys2Proof.Machine
end

section
/-! PROOF. The laws of the events, said of a state that some events have led to: each adds its own to them. A request's events
are then read off one operation after the other. -/

namespace Sys2Proof.Machine

theorem State.gives_left {s : State} {xs ys : List Event} (h : s.gives (xs ++ ys)) : s.gives xs :=
  ((s.gives_append xs ys s.ste s.bridge s.bufs).mp h).1

variable {s : State} {evs : List Event} {t : Ste} {b : Bridge} {rs : List (List Byte)}

theorem emitCmds_went {cs : List Instr} {bs : List Byte} (hc : s.cfg.chip = .cmd) (hb : encodeAll cs = bs)
    (h : s.gives (evs ++ [.sent bs])) :
    emitCmds cs (s.went evs t b rs)
      = .ok () (s.went (evs ++ [.sent bs]) (trackSets cs t) (Bridge.feed s.cfg t.mux cs b) rs) := by
  have hw := emitCmds_sent (s := s.went evs t b rs) hc hb ((s.gives_append _ _ _ _ _).mp h).2
  rwa [State.went_went] at hw

theorem emitSamples_went {bs : List Byte} {x : Byte} (hm : t.mux = .syncBb) (hx : bs.getLast? = some x)
    (h : s.gives (evs ++ [.sent bs])) :
    emitSamples bs (s.went evs t b rs)
      = .ok () (s.went (evs ++ [.sent bs]) { t with grpD := { t.grpD with val := x } }
          { b with latchD := x, sent := b.sent ++ List.replicate bs.length .sample } rs) := by
  have hw := emitSamples_bb (s := s.went evs t b rs) hm ((s.gives_append _ _ _ _ _).mp h).2 hx
  rwa [State.went_went] at hw

theorem rd_went {n : Nat} {x : List Byte} (h : s.gives (evs ++ [.rd n x .ok])) :
    rd n (s.went evs t b rs) = .ok x (s.went (evs ++ [.rd n x .ok]) t (b.consume x.length) rs) := by
  have hr := rd_got (s := s.went evs t b rs) ((s.gives_append _ _ _ _ _).mp h).2
  rwa [State.went_went] at hr

theorem bbGroupSet_went {val dir x : Byte} (hc : s.cfg.chip = .bb) (hm : t.mux = .syncBb) (hdir : t.bbdir = t.grpD.dir)
    (h : s.gives (evs ++ (dirEvents t dir ++ [.sent [val], .got [x]]))) :
    bbGroupSet val dir (s.went evs t b rs)
      = .ok () (s.went (evs ++ (dirEvents t dir ++ [.sent [val], .got [x]]))
          { t with bbdir := dir, grpD := { dir := dir, val := val, indet := false } }
          { b with
            dirD := if dir = t.bbdir then b.dirD else dir
            latchD := val
            sent := (b.sent ++ [Resp.sample]).drop 1 } rs) := by
  have hset := bbGroupSet_did (s := s.went evs t b rs) hc hm hdir ((s.gives_append _ _ _ _ _).mp h).2
  rwa [State.went_went] at hset

end Sys2Proof.Machine
end

section
/-! PROOF. The requests that claim an engine, change its clock or release it (R92, R100, R114, R123 to R125, R134): the clock
step, the write of the idle state, and last the claim. -/

namespace Sys2Proof.Machine

/-! ### The clock step (R89, R92) -/

/-- The write of CLOCK_SELECT. -/
abbrev clockBytes (low : Bool) (d : Nat) : List Byte :=
  [if low then 0x8B else 0x8A, 0x86, BitVec.ofNat 8 ((d - 1) % 256), BitVec.ofNat 8 ((d - 1) / 256 % 256)]

theorem clockSelect_did {s : State} {f : Rat} {low : Bool} {d : Nat} (hc : s.cfg.chip = .cmd)
    (hplan : clockPlan s.cfg f = some (low, d)) (h : s.gives [.sent (clockBytes low d)]) :
    clockSelect f s
      = .ok (clockActual s.cfg low d)
          (s.went [.sent (clockBytes low d)] { s.ste with clk := some f }
            (Bridge.feed s.cfg s.ste.mux (clockSeq low d) s.bridge) s.bufs) := by
  simp only [clockSelect, hplan, emitCmds_sent hc (encodeAll_clockSeq low d) h, trackSets_clockSeq]
  rfl

theorem clockSelect_none {s : State} {f : Rat} (hplan : clockPlan s.cfg f = none) :
    clockSelect f s = .err .clockTooLow s := by simp only [clockSelect, hplan]

/-- What the clock step of a connect leaves in the bridge. -/
def clockStepBridge (lower low : Bool) (d : Nat) (s : State) : Bridge :=
  if lower then Bridge.feed s.cfg s.ste.mux (clockSeq low d) s.bridge else s.bridge

theorem clockStepBridge_ready {lower low : Bool} {d : Nat} {s : State} (h : s.bridge.understands s.ste.mux) :
    clockStepBridge lower low d s
      = { s.bridge with
          lowBase := if lower then low else s.bridge.lowBase
          divisor := if lower then d else s.bridge.divisor } := by
  rw [clockStepBridge, Bridge.feed_ready _ _ h, foldl_clockSeq]
  cases lower <;> rfl

theorem connectClock_did {s : State} {c : SpiConn} {low : Bool} {d : Nat} (hc : s.cfg.chip = .cmd)
    (hplan : clockPlan s.cfg (hz c.freq) = some (low, d))
    (h : s.gives (if needsClock s.ste.clk c.freq then [.sent (clockBytes low d)] else [])) :
    connectClock c s
      = .ok () (s.went (if needsClock s.ste.clk c.freq then [.sent (clockBytes low d)] else [])
          { s.ste with clk := if needsClock s.ste.clk c.freq then some (hz c.freq) else s.ste.clk }
          (clockStepBridge (needsClock s.ste.clk c.freq) low d s) s.bufs) := by
  unfold connectClock clockStepBridge
  cases hlower : needsClock s.ste.clk c.freq with
  | true =>
    rw [hlower] at h
    simp only [if_true, clockSelect_did hc hplan h, Res.bind_ok]
  | false => exact congrArg (Res.ok ()) s.went_nil.symm

/-! ### SPI_CONNECT (R100, R114) -/

theorem encodeAll_connectSeq (c : SpiConn) (g : Group) :
    encodeAll (connectSeq c g) = [0x8D, 0x9E, 0x00, 0x00, 0x80, spiIdle c g, spiDir c g] := rfl

theorem trackSets_connectSeq (c : SpiConn) (g : Group) (t : Ste) :
    trackSets (connectSeq c g) t = { t with grpD := spiIdleGroup c g } := rfl

/-- The checks of a connect that is accepted. -/
theorem connectError_none {p : Params} {t : Ste} {f mode : Nat} (hmode : mode < 32) (hhalf : mode.testBit 2 = false)
    (hfloor : p.fMin ≤ min f (spiCeiling p)) (hfree : t.usingI2c = false) : connectError p t f mode 8 = none := by
  simp [connectError, hhalf, hfree, Nat.not_lt.mpr hfloor, Nat.not_le.mpr hmode]

theorem spiConnect_of_ok {s : State} {f mode : Nat} (h : connectError s.cfg s.ste f mode 8 = none) :
    spiConnect f mode 8 s
      = (connectIo (askedConn s.cfg f mode) s).bind fun _ s' =>
          .ok .unit (s'.withSte (Ste.claimSpi (askedConn s.cfg f mode))) := by
  rw [spiConnect, spiCheck_ok h]

theorem connectIo_cmd {s : State} (hc : s.cfg.chip = .cmd) (c : SpiConn) :
    connectIo c s = (connectClock c s).bind fun _ s => emitCmds (connectSeq c s.ste.grpD) s := by rw [connectIo, hc]

theorem connectIo_bb {s : State} (hc : s.cfg.chip = .bb) (c : SpiConn) :
    connectIo c s
      = (connectRate c s).bind fun _ s => bbGroupSet (spiIdle c s.ste.grpD) (spiDir c s.ste.grpD) s := by
  rw [connectIo, hc]

/-- The I/O of a connect on CMD: the clock step, then the write of the idle state. -/
theorem connectIo_cmd_did {s : State} {c : SpiConn} {low : Bool} {d : Nat} (hc : s.cfg.chip = .cmd)
    (hplan : clockPlan s.cfg (hz c.freq) = some (low, d))
    (h : s.gives ((if needsClock s.ste.clk c.freq then [.sent (clockBytes low d)] else [])
      ++ [.sent [0x8D, 0x9E, 0x00, 0x00, 0x80, spiIdle c s.ste.grpD, spiDir c s.ste.grpD]])) :
    connectIo c s
      = .ok () (s.went ((if needsClock s.ste.clk c.freq then [.sent (clockBytes low d)] else [])
            ++ [.sent [0x8D, 0x9E, 0x00, 0x00, 0x80, spiIdle c s.ste.grpD, spiDir c s.ste.grpD]])
          { s.ste with
            clk := if needsClock s.ste.clk c.freq then some (hz c.freq) else s.ste.clk
            grpD := spiIdleGroup c s.ste.grpD }
          (Bridge.feed s.cfg s.ste.mux (connectSeq c s.ste.grpD)
            (clockStepBridge (needsClock s.ste.clk c.freq) low d s)) s.bufs) := by
  rw [connectIo_cmd hc, Res.bind_of_ok (connectClock_did hc hplan (State.gives_left h))]
  refine (emitCmds_went hc (encodeAll_connectSeq _ _) h).trans ?_
  rw [trackSets_connectSeq]

/-- Settles O29. -/
theorem connectOnCmd : Obligations.ConnectOnCmd := by
  intro s f mode low d fr c idle dir lower evs hc ho hmode hhalf hfloor hfree hplan hgives
  have hceiling : spiCeiling s.cfg = s.cfg.fBaseHi := by
    rw [spiCeiling, hc]
    rfl
  have hconn : askedConn s.cfg f mode = c := by rw [askedConn, hceiling]
  have hlower : needsClock s.ste.clk c.freq = lower := rfl
  have hio := connectIo_cmd_did (c := c) hc hplan hgives
  rw [hlower] at hio
  refine ⟨Bridge.feed s.cfg s.ste.mux (connectSeq c s.ste.grpD) (clockStepBridge lower low d s), request_ok ho ?_,
    fun hm ha => ?_⟩
  · rw [spiConnect_of_ok (connectError_none hmode hhalf (hceiling.symm ▸ hfloor) hfree), hconn, Res.bind_of_ok hio]
    rfl
  · have hu : s.bridge.understands s.ste.mux := ⟨hm, ha⟩
    have hclock := clockStepBridge_ready (lower := lower) (low := low) (d := d) hu
    have hu' : (clockStepBridge lower low d s).understands s.ste.mux := by
      rw [hclock]
      exact hu
    rw [Bridge.feed_ready _ _ hu', foldl_connectSeq, hclock]

/-- The clock step of a connect on BB. -/
theorem connectRate_did {s : State} {c : SpiConn}
    (h : s.gives (if needsClock s.ste.clk c.freq then [.did (.setRate (2 * c.freq))] else [])) :
    connectRate c s
      = .ok () (s.went (if needsClock s.ste.clk c.freq then [.did (.setRate (2 * c.freq))] else [])
          { s.ste with clk := if needsClock s.ste.clk c.freq then some (hz c.freq) else s.ste.clk }
          { s.bridge with rate := if needsClock s.ste.clk c.freq then some (2 * c.freq) else s.bridge.rate } s.bufs) := by
  unfold connectRate
  cases hlower : needsClock s.ste.clk c.freq with
  | true =>
    rw [hlower] at h
    simp only [if_true, ctrl_did h]
    rfl
  | false => exact congrArg (Res.ok ()) s.went_nil.symm

/-- The I/O of a connect on BB: the clock step, then the group set of the idle state. -/
theorem connectIo_bb_did {s : State} {c : SpiConn} {x : Byte} (hc : s.cfg.chip = .bb) (hm : s.ste.mux = .syncBb)
    (hdir : s.ste.bbdir = s.ste.grpD.dir)
    (h : s.gives ((if needsClock s.ste.clk c.freq then [.did (.setRate (2 * c.freq))] else [])
      ++ (dirEvents s.ste (spiDir c s.ste.grpD) ++ [.sent [spiIdle c s.ste.grpD], .got [x]]))) :
    connectIo c s
      = .ok () (s.went ((if needsClock s.ste.clk c.freq then [.did (.setRate (2 * c.freq))] else [])
            ++ (dirEvents s.ste (spiDir c s.ste.grpD) ++ [.sent [spiIdle c s.ste.grpD], .got [x]]))
          { s.ste with
            clk := if needsClock s.ste.clk c.freq then some (hz c.freq) else s.ste.clk
            bbdir := spiDir c s.ste.grpD
            grpD := spiIdleGroup c s.ste.grpD }
          { s.bridge with
            rate := if needsClock s.ste.clk c.freq then some (2 * c.freq) else s.bridge.rate
            dirD := if spiDir c s.ste.grpD = s.ste.bbdir then s.bridge.dirD else spiDir c s.ste.grpD
            latchD := spiIdle c s.ste.grpD
            sent := (s.bridge.sent ++ [Resp.sample]).drop 1 } s.bufs) := by
  rw [connectIo_bb hc, Res.bind_of_ok (connectRate_did (State.gives_left h))]
  exact bbGroupSet_went
    (t := { s.ste with clk := if needsClock s.ste.clk c.freq then some (hz c.freq) else s.ste.clk }) hc hm hdir h

/-- Settles O30. -/
theorem connectOnBb : Obligations.ConnectOnBb := by
  intro s f mode x fr c idle dir lower evs hc ho hm hdir hmode hhalf hfloor hfree hgives
  have hceiling : spiCeiling s.cfg = s.cfg.fMaxBb := by rw [spiCeiling, hc]
  have hconn : askedConn s.cfg f mode = c := by rw [askedConn, hceiling]
  have hevs : evs = (if lower then [.did (.setRate (2 * fr))] else [])
      ++ (dirEvents s.ste dir ++ [.sent [idle], .got [x]]) := List.append_assoc ..
  rw [hevs] at hgives ⊢
  refine request_ok ho ?_
  rw [spiConnect_of_ok (connectError_none hmode hhalf (hceiling.symm ▸ hfloor) hfree), hconn, 
    Res.bind_of_ok (connectIo_bb_did (c := c) hc hm hdir hgives)]
  rfl

/-! ### I²C: open, speed, close (R123 to R125) -/

theorem encodeAll_i2cOpenSeq (g : Group) :
    encodeAll (i2cOpenSeq g) = [0x8C, 0x9E, 0x03, 0x00, 0x80, i2cVal g true true, i2cDir g] := rfl

/-- Settles O38. -/
theorem i2cOpens : Obligations.I2cOpens := by
  intro s low d target g evs hc ho hspi hi2c hplan hgives
  have hfree : ¬(s.ste.usingSpi || s.ste.usingI2c) = true := by rw [hspi, hi2c]; exact nofun
  refine ⟨Bridge.feed s.cfg s.ste.mux (i2cOpenSeq s.ste.grpD) (Bridge.feed s.cfg s.ste.mux (clockSeq low d) s.bridge),
    request_ok ho ?_, fun hm ha => ?_⟩
  · have htarget : i2cTarget s.cfg.i2cRate = target := rfl
    rw [onCmd_cmd hc]
    show (if (s.ste.usingSpi || s.ste.usingI2c) = true then _ else _) = _
    rw [if_neg hfree, htarget, Res.bind_of_ok (clockSelect_did hc hplan (State.gives_left (xs := [_]) hgives))]
    exact Res.bind_of_ok (emitCmds_went (evs := [_]) hc (encodeAll_i2cOpenSeq _) hgives) _
  · have hu : s.bridge.understands s.ste.mux := ⟨hm, ha⟩
    have hu' : ((clockSeq low d).foldl Bridge.command s.bridge).understands s.ste.mux := by
      rw [foldl_clockSeq]
      exact hu
    rw [Bridge.feed_ready _ _ hu, Bridge.feed_ready _ _ hu', foldl_i2cOpenSeq, foldl_clockSeq]
    rfl

/-- Settles O39. -/
theorem i2cSpeedSets : Obligations.I2cSpeedSets := by
  intro s r bus hc ho hbus target
  have hbody : onCmd (withI2c fun _ => i2cSetSpeed r) s
      = (clockSelect target s).bind fun _ s => .ok .unit (s.withSte fun t => { t with i2c := some ⟨r⟩ }) := by
    rw [onCmd_cmd hc, withI2c_some hbus]
    rfl
  cases hplan : clockPlan s.cfg target with
  | none => exact request_raises ho (by rw [hbody, clockSelect_none hplan, Res.bind_err]) rfl
  | some plan =>
    obtain ⟨low, d⟩ := plan
    intro hgives
    refine ⟨Bridge.feed s.cfg s.ste.mux (clockSeq low d) s.bridge, request_ok ho ?_, fun hm ha => ?_⟩
    · rw [hbody, Res.bind_of_ok (clockSelect_did hc hplan hgives)]
      rfl
    · rw [Bridge.feed_ready _ _ ⟨hm, ha⟩, foldl_clockSeq]

/-- The claim is released before the write (R125). -/
abbrev Ste.releaseI2c (t : Ste) : Ste := { t with i2c := none, usingI2c := false }

theorem i2cClose_body {s : State} {bus : I2cBus} (hc : s.cfg.chip = .cmd) (hbus : s.ste.i2c = some bus) :
    onCmd (withI2c fun _ => i2cClose) s = (emitCmds i2cCloseSeq (s.withSte Ste.releaseI2c)).reply fun _ _ => .unit := by
  rw [onCmd_cmd hc, withI2c_some hbus]
  rfl

/-- Settles O42. -/
theorem i2cCloses : Obligations.I2cCloses := by
  intro s bus hc ho hbus
  refine ⟨fun hgives => ?_, fun n hgives => ?_⟩
  · have hw := emitCmds_sent (s := s.withSte Ste.releaseI2c) (cs := i2cCloseSeq) hc rfl hgives
    refine ⟨Bridge.feed s.cfg s.ste.mux i2cCloseSeq s.bridge, request_ok ho ?_, fun hm ha => ?_⟩
    · rw [i2cClose_body hc hbus, Res.reply_of_ok hw]
      rfl
    · rw [Bridge.feed_ready _ _ ⟨hm, ha⟩, foldl_i2cCloseSeq]
  · have hw := emitCmds_fails (s := s.withSte Ste.releaseI2c) (cs := i2cCloseSeq) hc rfl hgives
    refine ⟨(Bridge.broken s.cfg s.ste.mux i2cCloseSeq s.bridge).lostPins .d, ?_⟩
    refine (request_open ho _).trans ?_
    rw [i2cClose_body hc hbus, hw, Res.reply_err, finish_err, State.raise_of_transport rfl]
    simp only [State.struck, State.went_cfg, State.withSte_cfg, hc, State.went_withSte, State.went_withBridge,
      State.went_addResult]
    rfl

/-! ### The two claims exclude each other (R134) -/

/-- A request that ended in success was on an open device, and its body went through. -/
theorem request_done {g : GroupId} {body : State → Res Reply} {s t : State} {v : Reply}
    (h : request g body s = .next t) (hlast : t.results.getLast? = some ⟨none, v⟩) :
    s.ste.dev = .opened ∧ ∃ u, body s = .ok v u ∧ t = u.addResult ⟨none, v⟩ := by
  have hraise : ∀ (u : State) e, (u.raise g e).results.getLast? ≠ some ⟨none, v⟩ := by
    intro u e heq
    rw [State.raise, State.addResult_results, List.getLast?_concat] at heq
    cases heq
  by_cases ho : s.ste.dev = .opened
  · refine ⟨ho, ?_⟩
    rw [request_open ho] at h
    cases h
    cases hbody : body s with
    | ok w u =>
      rw [hbody, finish_ok, State.addResult_results, List.getLast?_concat] at hlast
      cases hlast
      exact ⟨u, rfl, rfl⟩
    | err e u =>
      rw [hbody] at hlast
      exact absurd hlast (hraise u e)
  · rw [request, whenOpen, if_neg ho] at h
    cases h
    exact absurd hlast (hraise s _)

/-- After a connect that succeeded, the device is open and SPI has its claim. -/
theorem spiConnect_claims {f mode bits : Nat} {s t : State} {v : Reply} (h : spiConnect f mode bits s = .ok v t) :
    t.cfg = s.cfg ∧ t.ste.dev = s.ste.dev ∧ t.ste.usingSpi = true := by
  unfold spiConnect at h
  split at h
  next => cases h
  next c _ =>
    obtain ⟨_, u, hu, h⟩ := Res.bind_eq_ok.mp h
    cases h
    have hio := (connectIo_io c s).ok hu
    exact ⟨hio.cfg, hio.ste.dev, rfl⟩

/-- After an open of the bus that succeeded, the device is open and I²C has its claim. -/
theorem i2cOpen_claims {pull : Pull} {s t : State} {v : Reply} (h : i2cOpen pull s = .ok v t) :
    t.cfg = s.cfg ∧ t.ste.dev = s.ste.dev ∧ t.ste.usingI2c = true := by
  unfold i2cOpen at h
  split at h
  next => cases h
  next =>
    split at h
    next => cases h
    next =>
      obtain ⟨_, u, hu, h⟩ := Res.bind_eq_ok.mp h
      obtain ⟨_, u', hu', h⟩ := Res.bind_eq_ok.mp h
      cases h
      have hio := State.IoKept.trans ((clockSelect_io _ s).ok hu) ((emitCmds_io _ u).ok hu')
      exact ⟨hio.cfg, hio.ste.dev, rfl⟩

/-- Settles O47. -/
theorem claimsExclude : Obligations.ClaimsExclude := by
  refine fun s t f mode hc => ⟨fun h hlast => ?_, fun h hlast hmode hhalf hfloor => ?_⟩
  · obtain ⟨ho, u, hbody, rfl⟩ := request_done h hlast
    obtain ⟨hcfg, hdev, hspi⟩ := spiConnect_claims hbody
    exact exec_i2cOpen_inUse (hdev.trans ho) (by rw [State.addResult_cfg, hcfg, hc]) (.inl hspi)
  · obtain ⟨ho, u, hbody, rfl⟩ := request_done h hlast
    rw [onCmd_cmd hc] at hbody
    obtain ⟨hcfg, hdev, hi2c⟩ := i2cOpen_claims hbody
    have hchip : u.cfg.chip = .cmd := hcfg ▸ hc
    have hceiling : spiCeiling u.cfg = u.cfg.fBaseHi := by
      rw [spiCeiling, hchip]
      rfl
    refine exec_spiConnect_error (hdev.trans ho) ?_
    have hlow : ¬min f (spiCeiling u.cfg) < u.cfg.fMin := by
      rw [hceiling]
      exact Nat.not_lt.mpr hfloor
    simp [connectError, hhalf, hi2c, hlow, Nat.not_le.mpr hmode]

end Sys2Proof.Machine
end

section
/-! PROOF. `DEV_OPEN` (R93 to R95, R150, R161). The mode requests and the drain lead to the verification; each probe of it answers
or fails; the second attempt is the first after a reset. An open ends with its final write, or at its first final error. -/

namespace Sys2Proof.Machine

variable {s : State} {evs : List Event} {t : Ste} {b : Bridge} {rs : List (List Byte)}

/-! ### The events of an open, after others -/

theorem State.gives_right (h : s.gives (evs ++ ys)) : (s.went evs t b rs).gives ys :=
  ((s.gives_append _ _ _ _ _).mp h).2

theorem ctrl_went {q : CtrlReq} (h : s.gives (evs ++ [.did q])) :
    ctrl q (s.went evs t b rs)
      = .ok () (s.went (evs ++ [.did q]) (ctrlSte s.cfg.chip q t) (Bridge.control q b) rs) := by
  have hq := ctrl_did (s := s.went evs t b rs) (State.gives_right h)
  rwa [State.went_went] at hq

theorem ctrl_went_fails {q : CtrlReq} (h : s.gives (evs ++ [.ctrl q false])) :
    ctrl q (s.went evs t b rs)
      = .err (.transport .control) (s.went (evs ++ [.ctrl q false]) t (b.controlLost q) rs) := by
  have hq := ctrl_fails (s := s.went evs t b rs) (State.gives_right h)
  rwa [State.went_went] at hq

theorem flush_went {x : List Byte} (h : s.gives (evs ++ [.flush x true])) :
    flush (s.went evs t b rs) = .ok () (s.went (evs ++ [.flush x true]) t (b.drained t.mux x.length true) rs) := by
  have hf := flush_did (s := s.went evs t b rs) (State.gives_right h)
  rwa [State.went_went] at hf

theorem flush_went_fails {x : List Byte} (h : s.gives (evs ++ [.flush x false])) :
    flush (s.went evs t b rs)
      = .err (.transport .readAvailable) (s.went (evs ++ [.flush x false]) t (b.drained t.mux x.length false) rs) := by
  have hf := flush_fails (s := s.went evs t b rs) (State.gives_right h)
  rwa [State.went_went] at hf

theorem flush_went_ignored {x : List Byte} {ok : Bool} (h : s.gives (evs ++ [.flush x ok])) :
    (flush (s.went evs t b rs)).ignore
      = .ok () (s.went (evs ++ [.flush x ok]) t (b.drained t.mux x.length ok) rs) := by
  have hf := flush_ignored (s := s.went evs t b rs) (State.gives_right h)
  rwa [State.went_went] at hf

theorem emitCmds_went_fails {cs : List Instr} {bs : List Byte} {n : Nat} (hc : s.cfg.chip = .cmd) (hb : encodeAll cs = bs)
    (h : s.gives (evs ++ [.wr bs n false])) :
    emitCmds cs (s.went evs t b rs)
      = .err (.transport (.write n))
          (s.went (evs ++ [.wr bs n false]) (trackFails cs t) (Bridge.broken s.cfg t.mux cs b) rs) := by
  have hw := emitCmds_fails (s := s.went evs t b rs) hc hb (State.gives_right h)
  rwa [State.went_went] at hw

theorem rd_went_fails {n : Nat} {x : List Byte} {st : RdStatus} {e : Err} (h : s.gives (evs ++ [.rd n x st]))
    (he : (Event.rd n x st).error = some e) :
    rd n (s.went evs t b rs) = .err e (s.went (evs ++ [.rd n x st]) t (b.consume x.length) rs) := by
  have hr := rd_fails (s := s.went evs t b rs) (State.gives_right h) he
  rwa [State.went_went] at hr

/-- Two events, one after the other. -/
theorem append_pair {α : Type} (xs : List α) (x y : α) : xs ++ [x, y] = xs ++ [x] ++ [y] := by
  rw [List.append_assoc]
  rfl

/-! ### One probe (R93) -/

/-- What a probe's commands are: their bytes, and no set of a group. -/
theorem probe_seq {i : Instr} {x : Byte} (h : probeInstr x = some i) :
    encodeAll [i, .sendImmediate] = [x, 0x87] ∧ (∀ t, trackSets [i, .sendImmediate] t = t)
      ∧ ∀ t, trackFails [i, .sendImmediate] t = t := by
  unfold probeInstr at h
  split at h
  next hx =>
    cases h
    subst hx
    exact ⟨rfl, fun _ => rfl, fun _ => rfl⟩
  next =>
    split at h
    next hx =>
      cases h
      subst hx
      exact ⟨rfl, fun _ => rfl, fun _ => rfl⟩
    next => cases h

/-- A probe that is written and answered with `r`. -/
theorem verifyProbe_answered {i : Instr} {x : Byte} (hi : probeInstr x = some i) (hc : s.cfg.chip = .cmd) {r : List Byte}
    (h : s.gives (evs ++ [.sent [x, 0x87], .rd 2 r .ok])) :
    ∃ b', verifyProbe i x (s.went evs t b rs)
      = if r = [OPC.badCmd, x] then .ok () (s.went (evs ++ [.sent [x, 0x87], .rd 2 r .ok]) t b' rs)
        else .err .verifyFailed (s.went (evs ++ [.sent [x, 0x87], .rd 2 r .ok]) t b' rs) := by
  obtain ⟨hb, htrack, -⟩ := probe_seq hi
  rw [append_pair] at h ⊢
  refine ⟨(Bridge.feed s.cfg t.mux [i, .sendImmediate] b).consume r.length, ?_⟩
  unfold verifyProbe
  rw [Res.bind_of_ok (emitCmds_went hc hb (State.gives_left h)), Res.bind_of_ok (rd_went h), htrack]

theorem verifyProbe_did {i : Instr} {x : Byte} (hi : probeInstr x = some i) (hc : s.cfg.chip = .cmd)
    (h : s.gives (evs ++ probeEvents x)) :
    ∃ b', verifyProbe i x (s.went evs t b rs) = .ok () (s.went (evs ++ probeEvents x) t b' rs) := by
  obtain ⟨b', hb'⟩ := verifyProbe_answered (t := t) (b := b) (rs := rs) (r := [0xFA, x]) hi hc h
  exact ⟨b', hb'.trans (if_pos rfl)⟩

/-- How a probe fails: at its write, at the read of its echo, or with the wrong echo. -/
inductive ProbeFails (x : Byte) : List Event → Err → Prop
  | write (n : Nat) : ProbeFails x [.wr [x, 0x87] n false] (.transport (.write n))
  | echo (r : List Byte) (st : RdStatus) (e : Err) (err : (Event.rd 2 r st).error = some e) :
    ProbeFails x [.sent [x, 0x87], .rd 2 r st] e
  | wrong (r : List Byte) (ne : r ≠ [0xFA, x]) : ProbeFails x [.sent [x, 0x87], .rd 2 r .ok] .verifyFailed

theorem verifyProbe_fails {i : Instr} {x : Byte} (hi : probeInstr x = some i) (hc : s.cfg.chip = .cmd) {xs : List Event}
    {e : Err} (hfail : ProbeFails x xs e) (h : s.gives (evs ++ xs)) :
    ∃ b', verifyProbe i x (s.went evs t b rs) = .err e (s.went (evs ++ xs) t b' rs) := by
  obtain ⟨hb, htrack, hfails⟩ := probe_seq hi
  cases hfail with
  | write n =>
    refine ⟨Bridge.broken s.cfg t.mux [i, .sendImmediate] b, ?_⟩
    rw [verifyProbe, emitCmds_went_fails hc hb h, Res.bind_err, hfails]
  | echo r st _ err =>
    rw [append_pair] at h ⊢
    refine ⟨(Bridge.feed s.cfg t.mux [i, .sendImmediate] b).consume r.length, ?_⟩
    rw [verifyProbe, Res.bind_of_ok (emitCmds_went hc hb (State.gives_left h)), rd_went_fails h err, Res.bind_err, htrack]
  | wrong r ne =>
    obtain ⟨b', hb'⟩ := verifyProbe_answered (t := t) (b := b) (rs := rs) hi hc h
    exact ⟨b', hb'.trans (if_neg ne)⟩

/-! ### The fast path (R94) -/

/-- The mode requests and the drain lead to the verification. -/
theorem fastPath_modeSet {x : List Byte} (h : s.gives (evs ++ modeSetEvents x)) :
    ∃ b', fastPath (s.went evs t b rs)
      = verifyMode (s.went (evs ++ modeSetEvents x) { t with mux := .cmdStream } b' rs) := by
  have hevs : evs ++ modeSetEvents x = evs ++ [.did .init] ++ [.did (.setBitmode 0 .reset)]
      ++ [.did (.setBitmode 0 .cmdStream)] ++ [.flush x true] := by
    simp only [modeSetEvents, List.append_assoc]
    rfl
  rw [hevs] at h ⊢
  have h₃ := State.gives_left h
  have h₂ := State.gives_left h₃
  refine ⟨b.drained .cmdStream x.length true, ?_⟩
  unfold fastPath
  rw [Res.bind_of_ok (ctrl_went (State.gives_left h₂)), Res.bind_of_ok (ctrl_went h₂), Res.bind_of_ok (ctrl_went h₃),
    Res.bind_of_ok (flush_went h)]
  rfl

theorem fastPath_did (hc : s.cfg.chip = .cmd) {x : List Byte} (h : s.gives (evs ++ fastPathEvents x)) :
    ∃ b' : Bridge, b'.aligned = true ∧ b'.queue = [] ∧ b'.sent = []
      ∧ fastPath (s.went evs t b rs) = .ok () (s.went (evs ++ fastPathEvents x) { t with mux := .cmdStream } b' rs) := by
  have hevs : evs ++ fastPathEvents x = evs ++ modeSetEvents x ++ probeEvents 0xAA ++ probeEvents 0xAB := by
    simp only [fastPathEvents, List.append_assoc]
  rw [hevs] at h ⊢
  have h₁ := State.gives_left h
  obtain ⟨b₀, hmode⟩ := fastPath_modeSet (t := t) (b := b) (rs := rs) (State.gives_left h₁)
  obtain ⟨b₁, hprobe1⟩ := verifyProbe_did (i := .probe1) (t := { t with mux := .cmdStream }) (b := b₀) (rs := rs) rfl hc h₁
  obtain ⟨b₂, hprobe2⟩ := verifyProbe_did (i := .probe2) (t := { t with mux := .cmdStream }) (b := b₁) (rs := rs) rfl hc h
  refine ⟨b₂.resync, rfl, rfl, rfl, ?_⟩
  rw [hmode, verifyMode]
  exact (Res.bind_of_ok hprobe1 _).trans (Res.bind_of_ok hprobe2 _)

theorem fastPath_probe1_fails (hc : s.cfg.chip = .cmd) {x : List Byte} {xs : List Event} {e : Err}
    (hfail : ProbeFails 0xAA xs e) (h : s.gives (evs ++ (modeSetEvents x ++ xs))) :
    ∃ m b', fastPath (s.went evs t b rs) = .err e (s.went (evs ++ (modeSetEvents x ++ xs)) { t with mux := m } b' rs) := by
  rw [← List.append_assoc] at h ⊢
  obtain ⟨b₀, hmode⟩ := fastPath_modeSet (t := t) (b := b) (rs := rs) (State.gives_left h)
  obtain ⟨b₁, hprobe⟩ := verifyProbe_fails (i := .probe1) (t := { t with mux := .cmdStream }) (b := b₀) (rs := rs) rfl hc hfail h
  refine ⟨.cmdStream, b₁, ?_⟩
  rw [hmode, verifyMode]
  exact (congrArg (Res.bind · _) hprobe).trans (Res.bind_err ..)

theorem fastPath_probe2_fails (hc : s.cfg.chip = .cmd) {x : List Byte} {xs : List Event} {e : Err}
    (hfail : ProbeFails 0xAB xs e) (h : s.gives (evs ++ (modeSetEvents x ++ probeEvents 0xAA ++ xs))) :
    ∃ m b', fastPath (s.went evs t b rs)
      = .err e (s.went (evs ++ (modeSetEvents x ++ probeEvents 0xAA ++ xs)) { t with mux := m } b' rs) := by
  have hevs : evs ++ (modeSetEvents x ++ probeEvents 0xAA ++ xs) = evs ++ modeSetEvents x ++ probeEvents 0xAA ++ xs := by
    simp only [List.append_assoc]
  rw [hevs] at h ⊢
  have h₁ := State.gives_left h
  obtain ⟨b₀, hmode⟩ := fastPath_modeSet (t := t) (b := b) (rs := rs) (State.gives_left h₁)
  obtain ⟨b₁, hprobe1⟩ := verifyProbe_did (i := .probe1) (t := { t with mux := .cmdStream }) (b := b₀) (rs := rs) rfl hc h₁
  obtain ⟨b₂, hprobe2⟩ := verifyProbe_fails (i := .probe2) (t := { t with mux := .cmdStream }) (b := b₁) (rs := rs) rfl hc hfail h
  refine ⟨.cmdStream, b₂, ?_⟩
  rw [hmode, verifyMode]
  exact (Res.bind_of_ok hprobe1 _).trans ((congrArg (Res.bind · _) hprobe2).trans (Res.bind_err ..))

/-- A fast path that fails in any way has changed nothing of `S` but the mode. -/
theorem fastPath_fails (hc : s.cfg.chip = .cmd) {xs : List Event} {e : Err} (hfail : PathFails xs e)
    (h : s.gives (evs ++ xs)) :
    ∃ m b', fastPath (s.went evs t b rs) = .err e (s.went (evs ++ xs) { t with mux := m } b' rs) := by
  cases hfail with
  | init =>
    refine ⟨t.mux, b, ?_⟩
    rw [fastPath, ctrl_went_fails h]
    rfl
  | reset =>
    rw [append_pair] at h ⊢
    refine ⟨t.mux, b.controlLost (.setBitmode 0 .reset), ?_⟩
    rw [fastPath, Res.bind_of_ok (ctrl_went (State.gives_left h)), ctrl_went_fails h]
    rfl
  | mode =>
    have hevs : evs ++ [.did .init, .did (.setBitmode 0 .reset), .ctrl (.setBitmode 0 .cmdStream) false]
        = evs ++ [.did .init] ++ [.did (.setBitmode 0 .reset)] ++ [.ctrl (.setBitmode 0 .cmdStream) false] := by
      simp only [List.append_assoc]
      rfl
    rw [hevs] at h ⊢
    have h₁ := State.gives_left h
    refine ⟨.reset, b.controlLost (.setBitmode 0 .cmdStream), ?_⟩
    rw [fastPath, Res.bind_of_ok (ctrl_went (State.gives_left h₁)), Res.bind_of_ok (ctrl_went h₁), ctrl_went_fails h]
    rfl
  | drain x =>
    have hevs : evs ++ [.did .init, .did (.setBitmode 0 .reset), .did (.setBitmode 0 .cmdStream), .flush x false]
        = evs ++ [.did .init] ++ [.did (.setBitmode 0 .reset)] ++ [.did (.setBitmode 0 .cmdStream)] ++ [.flush x false] := by
      simp only [List.append_assoc]
      rfl
    rw [hevs] at h ⊢
    have h₂ := State.gives_left h
    have h₁ := State.gives_left h₂
    refine ⟨.cmdStream, b.drained .cmdStream x.length false, ?_⟩
    rw [fastPath, Res.bind_of_ok (ctrl_went (State.gives_left h₁)), Res.bind_of_ok (ctrl_went h₁),
      Res.bind_of_ok (ctrl_went h₂), flush_went_fails h]
    rfl
  | probe1 x n => exact fastPath_probe1_fails hc (.write n) h
  | echo1 x r st _ err => exact fastPath_probe1_fails hc (.echo r st e err) h
  | wrong1 x r ne => exact fastPath_probe1_fails hc (.wrong r ne) h
  | probe2 x n => exact fastPath_probe2_fails hc (.write n) h
  | echo2 x r st _ err => exact fastPath_probe2_fails hc (.echo r st e err) h
  | wrong2 x r ne => exact fastPath_probe2_fails hc (.wrong r ne) h

/-! ### The second attempt (R94) -/

theorem resetAttempt_did {y : List Byte} {ok : Bool} (h : s.gives (evs ++ [.did .resetDevice, .flush y ok])) :
    ∃ b', resetAttempt (s.went evs t b rs)
      = .ok () (s.went (evs ++ [.did .resetDevice, .flush y ok]) { t with mux := .unknown } b' rs) := by
  rw [append_pair] at h ⊢
  refine ⟨(Bridge.control .resetDevice b).drained .unknown y.length ok, ?_⟩
  unfold resetAttempt
  rw [Res.bind_of_ok (ctrl_went (State.gives_left h))]
  exact flush_went_ignored h

theorem attempt_false_eq (s : State) : attempt false s = (resetAttempt s).bind fun _ s => fastPath s := rfl

theorem attempt_fails (hc : s.cfg.chip = .cmd) {xs : List Event} {e : Err} (hfail : secondFails xs e)
    (h : s.gives (evs ++ xs)) :
    ∃ m b', attempt false (s.went evs t b rs) = .err e (s.went (evs ++ xs) { t with mux := m } b' rs) := by
  rcases hfail with ⟨rfl, rfl⟩ | ⟨y, ok, rest, rfl, hpath⟩
  · refine ⟨t.mux, b.controlLost .resetDevice, ?_⟩
    rw [attempt_false_eq, resetAttempt, ctrl_went_fails h]
    rfl
  · rw [← List.append_assoc] at h ⊢
    obtain ⟨b₁, hreset⟩ := resetAttempt_did (t := t) (b := b) (rs := rs) (State.gives_left h)
    obtain ⟨m, b₂, hfast⟩ := fastPath_fails (t := { t with mux := .unknown }) (b := b₁) (rs := rs) hc hpath h
    refine ⟨m, b₂, ?_⟩
    rw [attempt_false_eq, Res.bind_of_ok hreset, hfast]

/-! ### DEV_OPEN on CMD -/

/-- Nothing, or a first attempt that failed, and the reset and drain of the second. -/
abbrev OpenBegins (before : List Event) : Prop :=
  before = [] ∨ ∃ evs e y ok, PathFails evs e ∧ before = evs ++ [.did .resetDevice, .flush y ok]

/-- Where the fast path of either attempt succeeds, the open is down to its final write. -/
theorem openCmd_reaches_final (hc : s.cfg.chip = .cmd) {before : List Event} (hbefore : OpenBegins before) {x : List Byte}
    (h : s.gives (before ++ fastPathEvents x)) :
    ∃ b : Bridge, b.aligned = true ∧ b.queue = [] ∧ b.sent = []
      ∧ openCmd s = (openFinal (s.went (before ++ fastPathEvents x) { s.ste with mux := .cmdStream } b s.bufs)).orFailed := by
  rcases hbefore with rfl | ⟨evs, e, y, ok, hpath, rfl⟩
  · obtain ⟨b, ha, hq, hs, hfast⟩ := fastPath_did (evs := []) (t := s.ste) (b := s.bridge) (rs := s.bufs) hc h
    refine ⟨b, ha, hq, hs, ?_⟩
    have hfirst : attempt true s = .ok () (s.went ([] ++ fastPathEvents x) { s.ste with mux := .cmdStream } b s.bufs) := by
      rw [← hfast, s.went_nil]
      rfl
    simp only [openCmd, hfirst]
  · have hreset := State.gives_left h
    obtain ⟨m, b₁, hfast⟩ := fastPath_fails (evs := []) (t := s.ste) (b := s.bridge) (rs := s.bufs) hc hpath
      (State.gives_left hreset)
    obtain ⟨b₂, hreset'⟩ := resetAttempt_did (t := { s.ste with mux := m }) (b := b₁) (rs := s.bufs) hreset
    obtain ⟨b, ha, hq, hs, hfast'⟩ := fastPath_did (t := { s.ste with mux := .unknown }) (b := b₂) (rs := s.bufs) hc h
    refine ⟨b, ha, hq, hs, ?_⟩
    have hfirst : attempt true s = .err e (s.went evs { s.ste with mux := m } b₁ s.bufs) := by
      rw [s.went_nil] at hfast
      exact hfast
    simp only [openCmd, hfirst, attempt_false_eq, hreset', Res.bind_ok, hfast']

theorem devOpen_cmd (hc : s.cfg.chip = .cmd) (hdev : s.ste.dev ≠ .opened) :
    exec .devOpen s = .next (finishOpen (openCmd s)) := by
  show Host.Outcome.next (finishOpen (devOpen s)) = _
  rw [devOpen, if_neg hdev, hc]

theorem devOpen_bb (hc : s.cfg.chip = .bb) (hdev : s.ste.dev ≠ .opened) :
    exec .devOpen s = .next (finishOpen (openBb s)) := by
  show Host.Outcome.next (finishOpen (devOpen s)) = _
  rw [devOpen, if_neg hdev, hc]

theorem encodeAll_openFinalSeq : encodeAll openFinalSeq = finalBytes := rfl

/-- Settles O21. -/
theorem openOnCmd : Obligations.OpenOnCmd := by
  intro s before x hc hdev hbefore h
  obtain ⟨b, ha, hq, hs, hfinal⟩ := openCmd_reaches_final hc hbefore (State.gives_left h)
  have hw := emitCmds_went (t := { s.ste with mux := .cmdStream }) (b := b) (rs := s.bufs) hc encodeAll_openFinalSeq h
  refine ⟨openFinalSeq.foldl Bridge.command b, ?_, ha, rfl, rfl, rfl, rfl, rfl, rfl, rfl, hq, hs⟩
  rw [devOpen_cmd hc hdev, hfinal, openFinal, Res.bind_of_ok hw, Bridge.feed_ready _ _ ⟨rfl, ha⟩]
  rfl

/-! ### DEV_OPEN on BB -/

theorem bbInit_did (h : s.gives [.did .init]) : ctrl .init s = .ok () (s.went [.did .init] s.ste s.bridge s.bufs) := by
  have hctrl := ctrl_went (evs := []) (t := s.ste) (b := s.bridge) (rs := s.bufs) h
  rw [s.went_nil] at hctrl
  exact hctrl

theorem bbReset_did (h : s.gives [.did .init, .did (.setBitmode 0 .reset)]) :
    ctrl (.setBitmode 0 .reset) (s.went [.did .init] s.ste s.bridge s.bufs)
      = .ok () (s.went [.did .init, .did (.setBitmode 0 .reset)] { s.ste with mux := .reset } s.bridge s.bufs) :=
  ctrl_went (evs := [_]) h

/-- Settles O22. -/
theorem openFailsHard : Obligations.OpenFailsHard := by
  refine fun s hdev => ⟨fun hc evs1 evs2 e1 e2 hfirst hsecond h => ?_, fun hc before x n hbefore h => ?_,
    fun hc evs hevs h => ?_⟩
  · obtain ⟨m₁, b₁, hfast⟩ := fastPath_fails (evs := []) (t := s.ste) (b := s.bridge) (rs := s.bufs) hc hfirst
      (State.gives_left h)
    rw [s.went_nil] at hfast
    obtain ⟨m₂, b₂, hagain⟩ := attempt_fails (t := { s.ste with mux := m₁ }) (b := b₁) (rs := s.bufs) hc hsecond h
    have hfirst : attempt true s = .err e1 (s.went evs1 { s.ste with mux := m₁ } b₁ s.bufs) := hfast
    refine ⟨b₂, ?_⟩
    rw [devOpen_cmd hc hdev]
    simp only [openCmd, hfirst, hagain]
    rfl
  · obtain ⟨b, ha, hq, hs, hfinal⟩ := openCmd_reaches_final hc hbefore (State.gives_left h)
    have hw := emitCmds_went_fails (t := { s.ste with mux := .cmdStream }) (b := b) (rs := s.bufs) hc
      encodeAll_openFinalSeq h
    refine ⟨Bridge.broken s.cfg .cmdStream openFinalSeq b, rfl, ?_⟩
    rw [devOpen_cmd hc hdev, hfinal, openFinal, hw]
    rfl
  · simp only [List.mem_cons, List.not_mem_nil, or_false] at hevs
    rw [devOpen_bb hc hdev, openBb]
    rcases hevs with rfl | rfl | rfl
    · have hinit := ctrl_went_fails (evs := []) (t := s.ste) (b := s.bridge) (rs := s.bufs) h
      rw [s.went_nil] at hinit
      exact ⟨s.bridge, by rw [hinit]; rfl⟩
    · refine ⟨s.bridge.controlLost (.setBitmode 0 .reset), ?_⟩
      rw [Res.bind_of_ok (bbInit_did (State.gives_left (xs := [_]) h)), ctrl_went_fails (evs := [_]) h]
      rfl
    · refine ⟨s.bridge.controlLost (.setBitmode 0 .syncBb), ?_⟩
      rw [Res.bind_of_ok (bbInit_did (State.gives_left (xs := [_]) h)),
        Res.bind_of_ok (bbReset_did (State.gives_left (xs := [_, _]) h)), ctrl_went_fails (evs := [_, _]) h]
      rfl

/-- Settles O23. -/
theorem openOnBb : Obligations.OpenOnBb := by
  intro s y ok hc hdev evs h
  have hsync : ctrl (.setBitmode 0 .syncBb)
      (s.went [.did .init, .did (.setBitmode 0 .reset)] { s.ste with mux := .reset } s.bridge s.bufs)
      = .ok () (s.went [.did .init, .did (.setBitmode 0 .reset), .did (.setBitmode 0 .syncBb)]
          (ctrlSte .bb (.setBitmode 0 .syncBb) { s.ste with mux := .reset })
          (Bridge.control (.setBitmode 0 .syncBb) s.bridge) s.bufs) := by
    rw [ctrl_went (evs := [_, _]) (State.gives_left (xs := [_, _, _]) h), hc]
    rfl
  obtain ⟨-, hdir, -, -⟩ := Bridge.drained_pins .syncBb y.length ok { s.bridge with dirD := 0 }
  refine ⟨{ ({ s.bridge with dirD := 0 } : Bridge).drained .syncBb y.length ok with rate := none }, ?_, hdir, rfl, ?_⟩
  · rw [devOpen_bb hc hdev, openBb, Res.bind_of_ok (bbInit_did (State.gives_left (xs := [_]) h)),
      Res.bind_of_ok (bbReset_did (State.gives_left (xs := [_, _]) h)), Res.bind_of_ok hsync,
      Res.bind_of_ok (flush_went_ignored (evs := [_, _, _]) h)]
    rfl
  · rintro rfl
    exact ⟨rfl, rfl⟩

end Sys2Proof.Machine
end

section
/-! PROOF. The I²C transaction (R129, R130), one bus step after the other. Every step writes the line states of the group it
finds, and those are the same line states whichever step came before. -/

namespace Sys2Proof.Machine

variable {s : State} {evs : List Event} {t : Ste} {b : Bridge} {rs : List (List Byte)} {g h : Group}

theorem State.loadBufs_went (s : State) (rs : List (List Byte)) : s.loadBufs rs = s.went [] s.ste s.bridge rs := by
  cases s
  simp [State.loadBufs, State.went]

theorem Res.bind_of_err {α β : Type} {x : Res α} {e : Err} {u : State} (h : x = .err e u) (f : α → State → Res β) :
    x.bind f = .err e u := by rw [h, Res.bind_err]

/-! ### Masks -/

/-- Setting and clearing the same bits once more changes nothing. -/
theorem or_and_or_and (x m n : Byte) : (((x ||| m) &&& n) ||| m) &&& n = (x ||| m) &&& n := by
  refine BitVec.eq_of_getLsbD_eq fun i _ => ?_
  simp only [BitVec.getLsbD_and, BitVec.getLsbD_or]
  cases x.getLsbD i <;> cases m.getLsbD i <;> cases n.getLsbD i <;> rfl

/-- What is kept of a byte is not in what was put beside it. -/
theorem and_or_and_of_and_eq_zero (x : Byte) {n y : Byte} (hy : y &&& n = 0#8) : ((x &&& n) ||| y) &&& n = x &&& n := by
  refine BitVec.eq_of_getLsbD_eq fun i _ => ?_
  have hbit := congrArg (BitVec.getLsbD · i) hy
  simp only [BitVec.getLsbD_and, BitVec.getLsbD_or, BitVec.getLsbD_zero] at hbit ⊢
  rw [Bool.and_or_distrib_right, hbit, Bool.or_false, Bool.and_assoc, Bool.and_self]

/-! ### The line states are those of every group that differs in SCL and SDA alone -/

/-- `h` has the line states of `g`. -/
structure I2cAlike (g h : Group) : Prop where
  dir : i2cDir h = i2cDir g
  val : ∀ scl sda, i2cVal h scl sda = i2cVal g scl sda

theorem I2cAlike.refl (g : Group) : I2cAlike g g := ⟨rfl, fun _ _ => rfl⟩

/-- Group D after the line state `(scl, sda)`. -/
abbrev i2cLines (g : Group) (scl sda : Bool) : Group := { dir := i2cDir g, val := i2cVal g scl sda, indet := false }

theorem i2cDir_lines (g : Group) (scl sda : Bool) : i2cDir (i2cLines g scl sda) = i2cDir g :=
  or_and_or_and g.dir (pinSck ||| pinMosi) (~~~pinMiso)

theorem i2cVal_lines (g : Group) (a b scl sda : Bool) : i2cVal (i2cLines g a b) scl sda = i2cVal g scl sda := by
  have hlines : ∀ c d, (pinIf c pinSck ||| pinIf d pinMosi) &&& ~~~(pinSck ||| pinMosi) = 0#8 := by decide
  have hkept : (i2cVal g a b) &&& ~~~(pinSck ||| pinMosi) = g.val &&& ~~~(pinSck ||| pinMosi) := by
    rw [i2cVal, BitVec.or_assoc]
    exact and_or_and_of_and_eq_zero g.val (hlines a b)
  rw [i2cVal, hkept, i2cVal]

theorem I2cAlike.lines (g : Group) (scl sda : Bool) : I2cAlike g (i2cLines g scl sda) :=
  ⟨i2cDir_lines g scl sda, i2cVal_lines g scl sda⟩

theorem I2cAlike.set (hg : I2cAlike g h) (scl sda : Bool) : i2cSet h scl sda = i2cSet g scl sda := by
  rw [i2cSet, hg.dir, hg.val, i2cSet]

theorem I2cAlike.startSeq (hg : I2cAlike g h) (k : Nat) : i2cStartSeq k h = i2cStartSeq k g := by
  simp only [i2cStartSeq, hg.set]

theorem I2cAlike.wbSeq (hg : I2cAlike g h) (x : Byte) : i2cWbSeq h x = i2cWbSeq g x := by simp only [i2cWbSeq, hg.set]

theorem I2cAlike.rbSeq (hg : I2cAlike g h) (last : Bool) : i2cRbSeq h last = i2cRbSeq g last := by
  simp only [i2cRbSeq, hg.set]

theorem I2cAlike.stopIdleSeq (hg : I2cAlike g h) (k : Nat) :
    i2cStopSeq k h ++ i2cIdleSeq h = i2cStopSeq k g ++ i2cIdleSeq g := by
  simp only [i2cStopSeq, i2cIdleSeq, hg.set]

/-! ### The bus steps -/

/-- What a byte step leaves in a bridge that understands commands, once its response is read: these bits shifted out, and
SDA released. -/
def i2cStepped (g : Group) (wire : List Bool) (resps : List Resp) (b : Bridge) : Bridge :=
  { b with
    latchD := i2cVal g false true
    dirD := i2cDir g
    wire := b.wire ++ wire
    queue := []
    sent := (b.sent ++ b.queue ++ resps).drop resps.length }

theorem i2cStepped_stepped (g : Group) (v w : List Bool) (xs ys : List Resp) (b : Bridge) :
    i2cStepped g w ys (i2cStepped g v xs b) = i2cStepped g (v ++ w) (xs ++ ys) b := by
  have hle : xs.length ≤ (b.sent ++ b.queue ++ xs).length := by
    rw [List.length_append]
    exact Nat.le_add_left ..
  have hsent : ((b.sent ++ b.queue ++ xs).drop xs.length ++ [] ++ ys).drop ys.length
      = (b.sent ++ b.queue ++ (xs ++ ys)).drop (xs ++ ys).length := by
    rw [List.append_nil, ← List.drop_append_of_le_length hle, List.drop_drop, List.append_assoc, List.length_append]
  simp only [i2cStepped, hsent, List.append_assoc b.wire]

/-- Byte steps one after the other, each with the bits it shifts out and the response byte it returns. -/
def i2cSteps (g : Group) (steps : List (List Bool × Resp)) (b : Bridge) : Bridge :=
  steps.foldl (fun b x => i2cStepped g x.1 [x.2] b) b

theorem i2cSteps_append (g : Group) (xs ys : List (List Bool × Resp)) (b : Bridge) :
    i2cSteps g (xs ++ ys) b = i2cSteps g ys (i2cSteps g xs b) := List.foldl_append

theorem i2cSteps_stepped (g : Group) (steps : List (List Bool × Resp)) (v : List Bool) (xs : List Resp) (b : Bridge) :
    i2cSteps g steps (i2cStepped g v xs b) = i2cStepped g (v ++ steps.flatMap (·.1)) (xs ++ steps.map (·.2)) b := by
  induction steps generalizing v xs with
  | nil => simp [i2cSteps]
  | cons x steps ih =>
    rw [i2cSteps, List.foldl_cons, i2cStepped_stepped]
    refine (ih _ _).trans ?_
    simp

theorem i2cSteps_eq (g : Group) {steps : List (List Bool × Resp)} (hne : steps ≠ []) (b : Bridge) :
    i2cSteps g steps b = i2cStepped g (steps.flatMap (·.1)) (steps.map (·.2)) b := by
  cases steps with
  | nil => exact absurd rfl hne
  | cons x steps => exact i2cSteps_stepped g steps x.1 [x.2] b

theorem i2cSteps_understands {m : Mux} (g : Group) (steps : List (List Bool × Resp)) (hu : b.understands m) :
    (i2cSteps g steps b).understands m := by
  induction steps generalizing b with
  | nil => exact hu
  | cons x steps ih => exact ih hu

/-- Write bytes as byte steps (R127): eight bits out, one acknowledge bit back. -/
abbrev wbSteps (bs : List Byte) : List (List Bool × Resp) := bs.map fun x => (shiftOrder false x, .bits 1)

/-- Read bytes as byte steps (R128): one data byte back, the acknowledge bit out. -/
def rbSteps : Nat → List (List Bool × Resp)
  | 0 => []
  | n + 1 => ([decide (n = 0)], .data) :: rbSteps n

/-- A write byte is one write and one read of one byte; what comes next is the acknowledge bit's to say. -/
theorem i2cWriteByte_went (hc : s.cfg.chip = .cmd) (hg : I2cAlike g t.grpD) {x a : Byte}
    (hgives : s.gives (evs ++ ackedEvents g [(x, a)])) :
    ∃ b', i2cWriteByte x (s.went evs t b rs)
        = (if isNak a then
            (i2cStopIdle (s.went (evs ++ ackedEvents g [(x, a)]) { t with grpD := i2cLines g false true } b' rs)).bind
              fun _ s => .err .nak s
          else .ok () (s.went (evs ++ ackedEvents g [(x, a)]) { t with grpD := i2cLines g false true } b' rs))
      ∧ (b.understands t.mux → b' = i2cSteps g (wbSteps [x]) b) := by
  have hev : evs ++ ackedEvents g [(x, a)] = evs ++ [.sent (encodeAll (i2cWbSeq g x))] ++ [.got [a]] := by
    simp [ackedEvents]
  rw [hev] at hgives ⊢
  refine ⟨(Bridge.feed s.cfg t.mux (i2cWbSeq g x) b).consume 1, ?_, fun hu => ?_⟩
  · rw [i2cWriteByte, State.went_ste, hg.wbSeq, Res.bind_of_ok (emitCmds_went hc rfl (State.gives_left hgives)),
      trackSets_i2cWbSeq]
    exact Res.bind_of_ok (rd_went (n := 1) (x := [a]) hgives) _
  · rw [Bridge.feed_ready _ _ hu, foldl_i2cWbSeq, Bridge.consume_of_queue rfl]
    rfl

theorem ackedEvents_cons (g : Group) (x : Byte × Byte) (xs : List (Byte × Byte)) :
    ackedEvents g (x :: xs) = ackedEvents g [x] ++ ackedEvents g xs := by
  simp [ackedEvents]

/-- Write bytes that are all acknowledged. What follows them starts from there. -/
theorem i2cWriteBytes_acked (hc : s.cfg.chip = .cmd) {bs acks more : List Byte} (hlen : acks.length = bs.length)
    (hack : ∀ a ∈ acks, a.getLsbD 0 = false) (hg : I2cAlike g t.grpD)
    (hgives : s.gives (evs ++ ackedEvents g (bs.zip acks))) :
    ∃ h b', i2cWriteBytes (bs ++ more) (s.went evs t b rs)
        = i2cWriteBytes more (s.went (evs ++ ackedEvents g (bs.zip acks)) { t with grpD := h } b' rs)
      ∧ I2cAlike g h ∧ (b.understands t.mux → b' = i2cSteps g (wbSteps bs) b) := by
  induction bs generalizing acks evs t b with
  | nil => exact ⟨t.grpD, b, by simp [ackedEvents], hg, fun _ => rfl⟩
  | cons x bs ih =>
    cases acks with
    | nil => cases hlen
    | cons a acks =>
      rw [List.zip_cons_cons, ackedEvents_cons, ← List.append_assoc] at hgives ⊢
      obtain ⟨b₁, hstep, hb₁⟩ := i2cWriteByte_went (b := b) (rs := rs) hc hg (State.gives_left hgives)
      rw [isNak, if_neg (by rw [hack a (List.mem_cons_self ..)]; exact nofun)] at hstep
      obtain ⟨h, b₂, hrest, hh, hb₂⟩ := ih (t := { t with grpD := i2cLines g false true }) (b := b₁)
        (Nat.succ.inj hlen) (fun y hy => hack y (List.mem_cons_of_mem _ hy)) (I2cAlike.lines g false true) hgives
      refine ⟨h, b₂, ?_, hh, fun hu => ?_⟩
      · rw [List.cons_append, i2cWriteBytes, Res.bind_of_ok hstep, hrest]
      · have hu₁ : b₁.understands t.mux := by
          rw [hb₁ hu]
          exact i2cSteps_understands g _ hu
        rw [hb₂ hu₁, hb₁ hu, ← i2cSteps_append]
        rfl

/-- STOP and IDLE leave the bus idle. -/
theorem i2cStopIdle_went (hc : s.cfg.chip = .cmd) (hg : I2cAlike g t.grpD)
    (hgives : s.gives (evs ++ stopEvents s.cfg.k g)) :
    ∃ b', i2cStopIdle (s.went evs t b rs)
        = .ok () (s.went (evs ++ stopEvents s.cfg.k g) { t with grpD := i2cIdleGroup g } b' rs)
      ∧ (b.understands t.mux → b' = { b with latchD := i2cVal g true true, dirD := i2cDir g }) := by
  have htrack : trackSets (i2cStopSeq s.cfg.k g ++ i2cIdleSeq g) t = { t with grpD := i2cIdleGroup g } := by
    rw [i2cStopIdleSeq_sets]
    exact trackSets_setsLow _ List.getLast?_concat t
  refine ⟨Bridge.feed s.cfg t.mux (i2cStopSeq s.cfg.k g ++ i2cIdleSeq g) b, ?_, fun hu => ?_⟩
  · rw [i2cStopIdle, State.went_ste, State.went_cfg, hg.stopIdleSeq, emitCmds_went hc rfl hgives, htrack]
    rfl
  · rw [Bridge.feed_ready _ _ hu, i2cStopIdleSeq_sets, foldl_setsLow _ List.getLast?_concat]

/-- START leaves group D with line states like those it found. -/
theorem i2cStart_went (hc : s.cfg.chip = .cmd) (hg : I2cAlike g t.grpD)
    (hgives : s.gives (evs ++ [.sent (encodeAll (i2cStartSeq s.cfg.k g))])) :
    ∃ h b', emitCmds (i2cStartSeq s.cfg.k t.grpD) (s.went evs t b rs)
        = .ok () (s.went (evs ++ [.sent (encodeAll (i2cStartSeq s.cfg.k g))]) { t with grpD := h } b' rs)
      ∧ I2cAlike g h ∧ (b.understands t.mux → ∃ x y, b' = { b with latchD := x, dirD := y }) := by
  have htrack : ∃ h, trackSets (i2cStartSeq s.cfg.k g) t = { t with grpD := h } ∧ I2cAlike g h := by
    cases s.cfg.k with
    | zero => exact ⟨t.grpD, rfl, hg⟩
    | succ k =>
      rw [i2cStartSeq_sets, trackSets_setsLow _ (getLast?_append_replicate (Nat.succ_pos k) ..)]
      exact ⟨_, rfl, I2cAlike.lines g false false⟩
  obtain ⟨h, hh, halike⟩ := htrack
  refine ⟨h, Bridge.feed s.cfg t.mux (i2cStartSeq s.cfg.k g) b, ?_, halike, fun hu => ?_⟩
  · rw [hg.startSeq, emitCmds_went hc rfl hgives, hh]
  · rw [Bridge.feed_ready _ _ hu, i2cStartSeq_sets]
    exact foldl_setsLow_pins _ _ b

/-! ### The read bytes -/

/-- A byte stored where the filled part of a buffer ends. -/
theorem memWrite_append_singleton (done rest : List Byte) (x y : Byte) :
    memWrite (done ++ y :: rest) done.length [x] = done ++ [x] ++ rest := by
  simp [memWrite]

theorem i2cReadByte_went (hc : s.cfg.chip = .cmd)
    (hg : I2cAlike g t.grpD) {last : Bool} {x : Byte} {f : List Byte → State → Res Unit}
    (hgives : s.gives (evs ++ [.sent (encodeAll (i2cRbSeq g last)), .got [x]])) :
    ∃ b', ((emitCmds (i2cRbSeq t.grpD last) (s.went evs t b rs)).bind fun _ s => (rd 1 s).bind f)
        = f [x] (s.went (evs ++ [.sent (encodeAll (i2cRbSeq g last)), .got [x]]) { t with grpD := i2cLines g false true } b' rs)
      ∧ (b.understands t.mux → b' = i2cStepped g [last] [.data] b) := by
  rw [append_pair] at hgives ⊢
  refine ⟨(Bridge.feed s.cfg t.mux (i2cRbSeq g last) b).consume 1, ?_, fun hu => ?_⟩
  · rw [hg.rbSeq, Res.bind_of_ok (emitCmds_went hc rfl (State.gives_left hgives)), trackSets_i2cRbSeq]
    exact Res.bind_of_ok (rd_went (n := 1) (x := [x]) hgives) f
  · rw [Bridge.feed_ready _ _ hu, foldl_i2cRbSeq, Bridge.consume_of_queue rfl]
    rfl

/-- Read bytes fill the read buffer from where it was filled. -/
theorem i2cReadBytes_went (hc : s.cfg.chip = .cmd) {xs done rest : List Byte} (hlen : rest.length = xs.length)
    (hg : I2cAlike g t.grpD) (hgives : s.gives (evs ++ readEvents g xs)) :
    ∃ h b', i2cReadBytes xs.length done.length (s.went evs t b [done ++ rest])
        = .ok () (s.went (evs ++ readEvents g xs) { t with grpD := h } b' [done ++ xs])
      ∧ I2cAlike g h ∧ (b.understands t.mux → b' = i2cSteps g (rbSteps xs.length) b) := by
  induction xs generalizing done rest evs t b with
  | nil =>
    rw [List.length_eq_zero_iff.mp hlen]
    exact ⟨t.grpD, b, by simp [readEvents, i2cReadBytes], hg, fun _ => rfl⟩
  | cons x xs ih =>
    obtain ⟨y, rest, rfl⟩ := List.exists_cons_of_length_eq_add_one hlen
    have hev : evs ++ readEvents g (x :: xs)
        = evs ++ [.sent (encodeAll (i2cRbSeq g xs.isEmpty)), .got [x]] ++ readEvents g xs := by
      simp [readEvents]
    have hlast : decide (xs.length = 0) = xs.isEmpty := by cases xs <;> rfl
    rw [hev] at hgives ⊢
    obtain ⟨b₁, hstep, hb₁⟩ := i2cReadByte_went (b := b) (rs := [done ++ y :: rest]) hc hg
      (f := fun v s => i2cReadBytes xs.length (done.length + 1) (s.writeBuf 0 done.length v)) (State.gives_left hgives)
    have hstored : ∀ xs t b, (s.went xs t b [done ++ y :: rest]).writeBuf 0 done.length [x]
        = s.went xs t b [done ++ [x] ++ rest] := by
      intro xs t b
      rw [State.went_writeBuf, List.getD_cons_zero, memWrite_append_singleton, List.set_cons_zero]
    obtain ⟨h, b₂, hrest, hh, hb₂⟩ := ih (t := { t with grpD := i2cLines g false true }) (b := b₁) (done := done ++ [x])
      (rest := rest) (Nat.succ.inj hlen) (I2cAlike.lines g false true) hgives
    rw [List.length_append, List.length_singleton] at hrest
    refine ⟨h, b₂, ?_, hh, fun hu => ?_⟩
    · rw [List.length_cons, i2cReadBytes, State.went_ste, hlast, hstep, hstored, hrest, List.append_assoc done]
      rfl
    · have hu₁ : b₁.understands t.mux := by
        rw [hb₁ hu]
        exact hu
      rw [hb₂ hu₁, hb₁ hu, List.length_cons, rbSteps, hlast]
      cases xs <;> rfl

theorem rbSteps_wire (n : Nat) :
    (rbSteps n).flatMap (·.1) = (List.range n).map fun j => decide (j + 1 = n) := by
  induction n with
  | zero => rfl
  | succ n ih =>
    rw [rbSteps, List.flatMap_cons, ih, List.range_succ_eq_map, List.map_cons, List.map_map]
    simp [Function.comp_def, eq_comm]

theorem rbSteps_resps (n : Nat) : (rbSteps n).map (·.2) = List.replicate n Resp.data := by
  induction n with
  | zero => rfl
  | succ n ih => rw [rbSteps, List.map_cons, ih, List.replicate_succ]

theorem wbSteps_wire (bs : List Byte) :
    (wbSteps bs).flatMap (·.1) = bs.flatMap fun x => [7, 6, 5, 4, 3, 2, 1, 0].map x.getLsbD := by
  rw [List.flatMap_map]
  rfl

theorem wbSteps_resps (bs : List Byte) : (wbSteps bs).map (·.2) = List.replicate bs.length (Resp.bits 1) := by
  rw [List.map_map]
  exact List.map_const' ..

/-! ### The transaction -/

theorem i2cTx_body {addr : Nat} {w r : List Byte} {bus : I2cBus} (hc : s.cfg.chip = .cmd) (hbus : s.ste.i2c = some bus)
    (haddr : addr ≤ 0xFF) :
    onCmd (withI2c fun _ => i2cTx addr w r.length) (s.loadBufs [r])
      = (emitCmds (i2cStartSeq s.cfg.k s.ste.grpD) (s.went [] s.ste s.bridge [r])).bind fun _ s =>
          (i2cWriteBytes (BitVec.ofNat 8 addr :: w) s).bind fun _ s =>
          (i2cReadBytes r.length 0 s).bind fun _ s =>
          (i2cStopIdle s).bind fun _ s => .ok (.bytes (s.buf 0)) s := by
  rw [onCmd_cmd (s := s.loadBufs [r]) hc, withI2c_some (s := s.loadBufs [r]) hbus, i2cTx, if_neg (Nat.not_lt.mpr haddr),
    State.loadBufs_went]
  rfl

/-- Settles O40. -/
theorem i2cTransfers : Obligations.I2cTransfers := by
  intro s bus addr w r xs acks g evs hc ho hbus haddr hacks hack hxs hgives
  have hread := State.gives_left hgives
  have hwrite := State.gives_left hread
  obtain ⟨h₁, b₁, hstart, ha₁, hb₁⟩ := i2cStart_went (g := g) (evs := []) (t := s.ste) (b := s.bridge) (rs := [r]) hc
    (I2cAlike.refl g) (State.gives_left hwrite)
  obtain ⟨h₂, b₂, hwritten, ha₂, hb₂⟩ := i2cWriteBytes_acked (t := { s.ste with grpD := h₁ }) (b := b₁) (rs := [r])
    (bs := BitVec.ofNat 8 addr :: w) (more := []) hc hacks hack ha₁ hwrite
  obtain ⟨h₃, b₃, hreads, ha₃, hb₃⟩ := i2cReadBytes_went (t := { s.ste with grpD := h₂ }) (b := b₂) (done := []) (rest := r)
    hc hxs.symm ha₂ hread
  obtain ⟨b₄, hstop, hb₄⟩ := i2cStopIdle_went (t := { s.ste with grpD := h₃ }) (b := b₃) (rs := [xs]) hc ha₃ hgives
  refine ⟨b₄, request_ok (s := s.loadBufs [r]) ho ?_, fun hm ha => ?_⟩
  · rw [i2cTx_body hc hbus haddr, ← hxs]
    rw [List.append_nil] at hwritten
    exact (Res.bind_of_ok hstart _).trans ((Res.bind_of_ok hwritten _).trans ((Res.bind_of_ok hreads _).trans
      (Res.bind_of_ok hstop _)))
  · obtain ⟨x, y, rfl⟩ := hb₁ ⟨hm, ha⟩
    have hu₂ : b₂.understands s.ste.mux := by
      rw [hb₂ ⟨hm, ha⟩]
      exact i2cSteps_understands g _ ⟨hm, ha⟩
    have hu₃ : b₃.understands s.ste.mux := by
      rw [hb₃ hu₂]
      exact i2cSteps_understands g _ hu₂
    rw [hb₄ hu₃, hb₃ hu₂, hb₂ ⟨hm, ha⟩, ← i2cSteps_append, i2cSteps_eq g (by exact nofun), List.flatMap_append,
      List.map_append, wbSteps_wire, wbSteps_resps, rbSteps_wire, rbSteps_resps, hxs]
    simp [i2cStepped]

/-- Settles O41. -/
theorem nakAborts : Obligations.NakAborts := by
  intro s bus addr w r acks nak sent b unsent g evs hc ho hbus haddr hbytes hacks hack hnak hgives
  have hlast := State.gives_left hgives
  have hwrite := State.gives_left hlast
  obtain ⟨h₁, b₁, hstart, ha₁, hb₁⟩ := i2cStart_went (g := g) (evs := []) (t := s.ste) (b := s.bridge) (rs := [r]) hc
    (I2cAlike.refl g) (State.gives_left hwrite)
  obtain ⟨h₂, b₂, hwritten, ha₂, hb₂⟩ := i2cWriteBytes_acked (t := { s.ste with grpD := h₁ }) (b := b₁) (rs := [r])
    (bs := sent) (more := b :: unsent) hc hacks hack ha₁ hwrite
  obtain ⟨b₃, hrefused, hb₃⟩ := i2cWriteByte_went (t := { s.ste with grpD := h₂ }) (b := b₂) (rs := [r]) hc ha₂ hlast
  obtain ⟨b₄, hstop, hb₄⟩ := i2cStopIdle_went (t := { s.ste with grpD := i2cLines g false true }) (b := b₃) (rs := [r]) hc
    (I2cAlike.lines g false true) hgives
  rw [isNak, if_pos hnak] at hrefused
  have hbody : i2cWriteBytes (sent ++ b :: unsent)
      (s.went [.sent (encodeAll (i2cStartSeq s.cfg.k g))] { s.ste with grpD := h₁ } b₁ [r])
        = .err .nak (s.went evs { s.ste with grpD := i2cIdleGroup g } b₄ [r]) := by
    refine hwritten.trans ?_
    rw [i2cWriteBytes, hrefused]
    exact Res.bind_of_err (Res.bind_of_ok hstop _) _
  refine ⟨b₄, ?_, fun hm ha => ?_⟩
  · refine (request_open (s := s.loadBufs [r]) ho _).trans ?_
    have hraised : onCmd (withI2c fun _ => i2cTx addr w r.length) (s.loadBufs [r])
        = .err .nak (s.went evs { s.ste with grpD := i2cIdleGroup g } b₄ [r]) := by
      rw [i2cTx_body hc hbus haddr, Res.bind_of_ok hstart, hbytes]
      exact Res.bind_of_err hbody _
    rw [hraised]
    rfl
  · obtain ⟨x, y, rfl⟩ := hb₁ ⟨hm, ha⟩
    have hu₂ : b₂.understands s.ste.mux := by
      rw [hb₂ ⟨hm, ha⟩]
      exact i2cSteps_understands g _ ⟨hm, ha⟩
    have hu₃ : b₃.understands s.ste.mux := by
      rw [hb₃ hu₂]
      exact i2cSteps_understands g _ hu₂
    rw [hb₄ hu₃, hb₃ hu₂, hb₂ ⟨hm, ha⟩, ← i2cSteps_append, ← List.map_append, i2cSteps_eq g (by simp), wbSteps_wire,
      wbSteps_resps]
    simp [i2cStepped]

end Sys2Proof.Machine
end

section
/-! PROOF. One SPI packet on CMD (R104 to R107), chunk after chunk. Two things hold between chunks: the read buffer is filled up
to the last chunk read, so that the bytes still to be sent are the caller's; and the bridge has shifted the bytes sent. -/

namespace Sys2Proof.Machine

variable {s : State} {evs : List Event} {t : Ste} {b : Bridge} {rs : List (List Byte)} {c : SpiConn} {g h : Group}
  {p : Packet} {chunk : Nat}

/-! ### The line states are those of every group that differs in the claimed pins alone -/

/-- `h` has the line states of `g`. -/
structure SpiAlike (c : SpiConn) (g h : Group) : Prop where
  dir : spiDir c h = spiDir c g
  idle : spiIdle c h = spiIdle c g

theorem SpiAlike.refl (c : SpiConn) (g : Group) : SpiAlike c g g := ⟨rfl, rfl⟩

theorem spiIdle_masked (c : SpiConn) (g : Group) : spiIdle c g &&& ~~~(spiMask c) = g.val &&& ~~~(spiMask c) := by
  have hlines : ∀ cpol nocs : Bool, (pinIf cpol pinSck ||| pinIf (!nocs) pinCs)
      &&& ~~~(pinSck ||| pinMosi ||| pinIf (!nocs) pinCs) = 0#8 := by decide
  rw [spiIdle, BitVec.or_assoc]
  exact and_or_and_of_and_eq_zero g.val (hlines c.cpol c.nocs)

theorem spiAssert_masked (c : SpiConn) (g : Group) : spiAssert c g &&& ~~~(spiMask c) = g.val &&& ~~~(spiMask c) := by
  have hselect : ∀ nocs : Bool, ~~~(pinIf (!nocs) pinCs) &&& ~~~(pinSck ||| pinMosi ||| pinIf (!nocs) pinCs)
      = ~~~(pinSck ||| pinMosi ||| pinIf (!nocs) pinCs) := by decide
  rw [spiAssert, BitVec.and_assoc, spiMask, hselect, ← spiMask, spiIdle_masked]

/-- A group whose directions are the connection's, and whose value keeps the pins not claimed. -/
theorem SpiAlike.of_masked {val : Byte} (hval : val &&& ~~~(spiMask c) = g.val &&& ~~~(spiMask c)) (indet : Bool) :
    SpiAlike c g { dir := spiDir c g, val := val, indet := indet } :=
  ⟨or_and_or_and g.dir (spiMask c) (~~~pinMiso), by rw [spiIdle, hval, spiIdle]⟩

theorem SpiAlike.idleGroup (c : SpiConn) (g : Group) : SpiAlike c g (spiIdleGroup c g) := .of_masked (spiIdle_masked c g) _

theorem SpiAlike.assert (hg : SpiAlike c g h) : spiAssert c h = spiAssert c g := by rw [spiAssert, hg.idle, spiAssert]

theorem SpiAlike.headerSeq (hg : SpiAlike c g h) : spiHeaderSeq c h = spiHeaderSeq c g := by
  rw [spiHeaderSeq, hg.dir, hg.idle, hg.assert, spiHeaderSeq]

theorem SpiAlike.trailerSeq (hg : SpiAlike c g h) : spiTrailerSeq c h = spiTrailerSeq c g := by
  rw [spiTrailerSeq, hg.dir, hg.idle, spiTrailerSeq]

/-- Group D between the header and the trailer. -/
abbrev spiHeldGroup (c : SpiConn) (g : Group) : Group :=
  { dir := spiDir c g, val := if c.nocs then spiIdle c g else spiAssert c g, indet := false }

theorem SpiAlike.heldGroup (c : SpiConn) (g : Group) : SpiAlike c g (spiHeldGroup c g) := by
  refine .of_masked ?_ _
  cases c.nocs
  · exact spiAssert_masked c g
  · exact spiIdle_masked c g

/-! ### Lengths -/

theorem packetLen_of_reads (hp : packetError p = none) (hr : hasR p = true) : p.r.length = packetLen p :=
  (packetError_none hp).2.2 hr

theorem r_of_not_reads (hr : hasR p = false) : p.r = [] := by
  rw [hasR, decide_eq_false_iff_not, Nat.not_lt, Nat.le_zero] at hr
  exact List.length_eq_zero_iff.mp hr

theorem chunkCount_spec (hchunk : 1 ≤ chunk) (hp : packetError p = none) :
    1 ≤ chunkCount chunk p ∧ packetLen p ≤ chunkCount chunk p * chunk := by
  have hle : packetLen p ≤ chunk * chunkCount chunk p := (ceilDiv_le_iff hchunk).mp (Nat.le_refl _)
  refine ⟨Nat.pos_of_ne_zero fun hzero => ?_, Nat.mul_comm chunk _ ▸ hle⟩
  have := (packetError_none hp).1
  rw [hzero] at hle
  omega

/-- The first `k + 1` chunks are the first `k` and one more. -/
theorem take_succ_chunk {l : List Byte} (hl : l.length = packetLen p) (k : Nat) :
    l.take ((k + 1) * chunk) = l.take (k * chunk) ++ memRead l (k * chunk) (chunkLen chunk p k) := by
  have hrest : memRead l (k * chunk) (chunkLen chunk p k) = (l.drop (k * chunk)).take chunk := by
    rw [memRead, chunkLen, ← hl, ← List.length_drop, ← List.take_take, List.take_length]
  rw [hrest, Nat.succ_mul, List.take_add]

/-! ### The read buffer between chunks -/

/-- The read buffer with this much of its answer. -/
def filled (p : Packet) (got : List Byte) : List Byte := got ++ p.r.drop got.length

theorem filled_nil (p : Packet) : filled p [] = p.r := rfl

theorem filled_whole {got : List Byte} (hlen : p.r.length ≤ got.length) : filled p got = got := by
  rw [filled, List.drop_of_length_le hlen, List.append_nil]

/-- The answer stored behind the one before it. -/
theorem memWrite_filled {got x : List Byte} (hlen : got.length + x.length ≤ p.r.length) :
    memWrite (filled p got) got.length x = filled p (got ++ x) := by
  have hsize : (filled p got).length - got.length = p.r.length - got.length := by simp [filled]
  rw [memWrite, hsize, List.take_of_length_le (by omega : x.length ≤ p.r.length - got.length), filled, filled,
    List.take_left, List.length_append, Nat.add_comm got.length, ← List.drop_drop, Nat.add_comm x.length]
  simp [Nat.add_comm]

/-- Chunks not yet answered are still the caller's bytes. -/
theorem memRead_filled {got : List Byte} {i n : Nat} (hlen : got.length ≤ i) :
    memRead (filled p got) i n = memRead p.r i n := by
  obtain ⟨d, rfl⟩ := Nat.exists_eq_add_of_le hlen
  rw [memRead, filled, List.drop_append, List.drop_eq_nil_of_le (Nat.le_add_right ..), List.nil_append, List.drop_drop,
    Nat.add_sub_cancel_left, memRead]

theorem chunkSeq_filled {got : List Byte} {k : Nat} (hlen : got.length ≤ k * chunk) :
    chunkSeq c chunk p (filled p got) k = chunkSeq c chunk p p.r k := by
  unfold chunkSeq chunkSrc
  cases hasW p with
  | true => rfl
  | false => simp only [Bool.false_eq_true, if_false, memRead_filled hlen]

/-! ### The bridge between chunks -/

/-- What a packet has done to a bridge that understands commands after these bytes were sent and so many of their responses
were read. -/
def spiProgress (c : SpiConn) (reads : Bool) (data : List Byte) (read : Nat) (b : Bridge) : Bridge :=
  { b with
    wire := b.wire ++ data.flatMap (shiftOrder c.lsbf)
    queue := if reads then [] else b.queue
    sent := if reads then (b.sent ++ b.queue ++ List.replicate data.length Resp.data).drop read else b.sent }

theorem chunkBridge_eq (c : SpiConn) (reads : Bool) (data : List Byte) (b : Bridge) :
    chunkBridge c reads data b = spiProgress c reads data 0 b := by
  cases reads <;> rfl

theorem chunkBridge_progress (c : SpiConn) (reads : Bool) (data more : List Byte) {read : Nat} (hread : read ≤ data.length)
    (b : Bridge) : chunkBridge c reads more (spiProgress c reads data read b) = spiProgress c reads (data ++ more) read b := by
  cases reads with
  | false => simp [chunkBridge, spiProgress]
  | true =>
    have hle : read ≤ (b.sent ++ b.queue ++ List.replicate data.length Resp.data).length := by
      rw [List.length_append, List.length_replicate]
      omega
    have hsent : (b.sent ++ b.queue ++ List.replicate data.length Resp.data).drop read ++ [] ++ List.replicate more.length Resp.data
        = (b.sent ++ b.queue ++ List.replicate (data ++ more).length Resp.data).drop read := by
      rw [List.append_nil, ← List.drop_append_of_le_length hle, List.append_assoc, ← List.replicate_add, List.length_append]
    simp only [chunkBridge, spiProgress, if_true, hsent, List.flatMap_append, List.append_assoc b.wire]

theorem consume_progress (c : SpiConn) (data : List Byte) (read n : Nat) (b : Bridge) :
    (spiProgress c true data read b).consume n = spiProgress c true data (read + n) b := by
  rw [Bridge.consume_of_queue rfl]
  simp only [spiProgress, if_true, List.drop_drop]

/-! ### The events of a packet, one after the other -/

/-- What the chunks before chunk `k` have been answered. -/
def answered (chunk : Nat) (p : Packet) (resp : List Byte) (k : Nat) : List Byte :=
  if hasR p then resp.take (k * chunk) else []

/-- The answer fits the packet. -/
abbrev Answers (p : Packet) (resp : List Byte) : Prop := hasR p = true → resp.length = p.r.length

theorem answered_length_le (chunk : Nat) (p : Packet) (resp : List Byte) (k : Nat) :
    (answered chunk p resp k).length ≤ k * chunk := by
  unfold answered
  cases hasR p
  · exact Nat.zero_le _
  · exact List.length_take_le ..

theorem chunkLen_add (k : Nat) (hk : k * chunk < packetLen p) :
    k * chunk + chunkLen chunk p k = min ((k + 1) * chunk) (packetLen p) := by
  rw [chunkLen, Nat.succ_mul]
  omega

/-- What chunks 0 to `k` have done to a bridge that understands commands once the responses of those before `k` are read. -/
abbrev chunksBridge (c : SpiConn) (chunk : Nat) (p : Packet) (sent read : Nat) (b : Bridge) : Bridge :=
  spiProgress c (hasR p) ((chunkSrc p p.r).take (sent * chunk)) (min (read * chunk) (packetLen p)) b

theorem emitChunk_went (hc : s.cfg.chip = .cmd) {got : List Byte} {j k : Nat} {head : List Instr} (hj : j < rs.length)
    (hlen : got.length ≤ k * s.cfg.pChunk)
    (hgives : s.gives (evs ++ [.sent (encodeAll head ++ chunkBytes c s.cfg.pChunk p k)])) :
    emitChunk c p j k head (s.went evs t b (rs.set j (filled p got)))
      = .ok () (s.went (evs ++ [.sent (encodeAll head ++ chunkBytes c s.cfg.pChunk p k)]) (trackSets head t)
          (Bridge.feed s.cfg t.mux (head ++ chunkSeq c s.cfg.pChunk p p.r k) b) (rs.set j (filled p got))) := by
  have hbuf : (s.went evs t b (rs.set j (filled p got))).buf j = filled p got := by simp [State.buf, hj]
  rw [emitChunk, hbuf, State.went_cfg, chunkSeq_filled hlen, emitCmds_went hc (encodeAll_append ..) hgives,
    trackSets_append, trackSets_chunkSeq]
  rfl

/-- The answer of a chunk is stored behind those before it. -/
theorem readChunk_stores {got x : List Byte} {j k : Nat} (hr : hasR p = true) (hj : j < rs.length)
    (hx : x.length = chunkLen s.cfg.pChunk p k) (hat : got.length = k * s.cfg.pChunk)
    (hfits : got.length + x.length ≤ p.r.length) (hgives : s.gives (evs ++ [.got x])) :
    readChunk p j k (s.went evs t b (rs.set j (filled p got)))
      = .ok () (s.went (evs ++ [.got x]) t (b.consume x.length) (rs.set j (filled p (got ++ x)))) := by
  rw [readChunk, if_pos hr, State.went_cfg, ← hx, Res.bind_of_ok (rd_went hgives), State.went_cfg, ← hat, State.went_writeBuf,
    List.set_set, List.getD_eq_getElem?_getD, List.getElem?_set_self hj, Option.getD_some, memWrite_filled hfits]

/-- A packet that does not read reads nothing. -/
theorem readChunk_skips (hr : hasR p = false) (j k : Nat) (s : State) : readChunk p j k s = .ok () s := by
  rw [readChunk, hr, if_neg nofun]

theorem readChunk_went {resp : List Byte} {j k : Nat} (hj : j < rs.length) (hp : packetError p = none)
    (hresp : Answers p resp) (hk : k * s.cfg.pChunk < packetLen p)
    (hgives : s.gives (evs ++ chunkRead s.cfg.pChunk p resp k)) :
    ∃ b', readChunk p j k (s.went evs t b (rs.set j (filled p (answered s.cfg.pChunk p resp k))))
        = .ok () (s.went (evs ++ chunkRead s.cfg.pChunk p resp k) t b'
            (rs.set j (filled p (answered s.cfg.pChunk p resp (k + 1)))))
      ∧ ∀ sent b₀, b = chunksBridge c s.cfg.pChunk p sent k b₀ → b' = chunksBridge c s.cfg.pChunk p sent (k + 1) b₀ := by
  unfold chunkRead chunksBridge answered at *
  cases hr : hasR p with
  | false =>
    rw [if_neg nofun, if_neg nofun, if_neg nofun, List.append_nil]
    exact ⟨b, readChunk_skips hr .., fun _ _ h => h⟩
  | true =>
    rw [hr, if_pos rfl] at hgives
    have hlen : resp.length = packetLen p := (hresp hr).trans (packetLen_of_reads hp hr)
    have hstored : (resp.take (k * s.cfg.pChunk)).length = k * s.cfg.pChunk := by
      rw [List.length_take]
      omega
    have hgot : (answerChunk s.cfg.pChunk p resp k).length = chunkLen s.cfg.pChunk p k := memRead_chunk_length hlen
    have hfits : (resp.take (k * s.cfg.pChunk)).length + (answerChunk s.cfg.pChunk p resp k).length ≤ p.r.length := by
      rw [hstored, hgot, chunkLen_add k hk, packetLen_of_reads hp hr]
      exact Nat.min_le_right ..
    refine ⟨b.consume (answerChunk s.cfg.pChunk p resp k).length, ?_, fun sent b₀ hb => ?_⟩
    · simp only [if_true]
      rw [readChunk_stores hr hj hgot hstored hfits hgives, take_succ_chunk hlen]
      rfl
    · rw [hb, hgot, consume_progress, Nat.min_eq_left (Nat.le_of_lt hk), chunkLen_add k hk]

/-- The writes of chunks `k + 1` to `k + count`, each followed by the read of the one before (R107). -/
def pipelined (c : SpiConn) (chunk : Nat) (p : Packet) (resp : List Byte) : Nat → Nat → List Event
  | _, 0 => []
  | k, count + 1 =>
    .sent (chunkBytes c chunk p (k + 1)) :: chunkRead chunk p resp k ++ pipelined c chunk p resp (k + 1) count

theorem pipelined_eq (c : SpiConn) (chunk : Nat) (p : Packet) (resp : List Byte) (k count : Nat) :
    pipelined c chunk p resp k count
      = (List.range' k count).flatMap fun k => .sent (chunkBytes c chunk p (k + 1)) :: chunkRead chunk p resp k := by
  induction count generalizing k with
  | zero => rfl
  | succ count ih =>
    rw [pipelined, ih, List.range'_succ, List.flatMap_cons]

theorem chunksBridge_understands {m : Mux} {n k : Nat} (hu : b.understands m) :
    (chunksBridge c chunk p n k b).understands m := hu

theorem chunkSrc_take_succ (hp : packetError p = none) (k : Nat) :
    (chunkSrc p p.r).take ((k + 1) * chunk) = (chunkSrc p p.r).take (k * chunk) ++ chunkData chunk p p.r k :=
  take_succ_chunk (chunkSrc_length hp rfl) k

theorem foldl_nextChunk (hp : packetError p = none) (k : Nat) (b : Bridge) :
    (chunkSeq c chunk p p.r (k + 1)).foldl Bridge.command (chunksBridge c chunk p (k + 1) k b)
      = chunksBridge c chunk p (k + 2) k b := by
  have hread : min (k * chunk) (packetLen p) ≤ ((chunkSrc p p.r).take ((k + 1) * chunk)).length := by
    rw [List.length_take, chunkSrc_length hp rfl, Nat.succ_mul]
    omega
  rw [foldl_chunkSeq, chunkBridge_progress c _ _ _ hread, ← chunkSrc_take_succ hp]

theorem txChunks_went (hc : s.cfg.chip = .cmd) {resp : List Byte} {j k count : Nat} (hj : j < rs.length)
    (hp : packetError p = none) (hresp : Answers p resp) (hk : (k + count) * s.cfg.pChunk < packetLen p)
    (hgives : s.gives (evs ++ pipelined c s.cfg.pChunk p resp k count)) :
    ∃ b', txChunks c p j count (k + 1) (s.went evs t b (rs.set j (filled p (answered s.cfg.pChunk p resp k))))
        = .ok () (s.went (evs ++ pipelined c s.cfg.pChunk p resp k count) t b'
            (rs.set j (filled p (answered s.cfg.pChunk p resp (k + count)))))
      ∧ ∀ b₀, b₀.understands t.mux → b = chunksBridge c s.cfg.pChunk p (k + 1) k b₀ →
        b' = chunksBridge c s.cfg.pChunk p (k + count + 1) (k + count) b₀ := by
  induction count generalizing k evs b with
  | zero =>
    rw [pipelined, List.append_nil]
    exact ⟨b, rfl, fun _ _ h => h⟩
  | succ count ih =>
    rw [pipelined, List.cons_append, ← List.singleton_append, ← List.append_assoc, ← List.append_assoc] at hgives ⊢
    rw [← Nat.add_assoc, Nat.add_right_comm] at hk ⊢
    have hkk : k * s.cfg.pChunk < packetLen p := by
      refine Nat.lt_of_le_of_lt (Nat.mul_le_mul_right _ ?_) hk
      omega
    have hread := State.gives_left hgives
    have hemit := emitChunk_went (c := c) (p := p) (k := k + 1) (head := []) (t := t) (b := b) hc hj
      (Nat.le_trans (answered_length_le s.cfg.pChunk p resp k) (Nat.mul_le_mul_right _ (Nat.le_succ k)))
      (State.gives_left hread)
    obtain ⟨b₁, hstored, hb₁⟩ := readChunk_went (t := t)
      (b := Bridge.feed s.cfg t.mux (chunkSeq c s.cfg.pChunk p p.r (k + 1)) b) hj hp hresp hkk hread
    obtain ⟨b₂, hrest, hb₂⟩ := ih (b := b₁) hk hgives
    refine ⟨b₂, ?_, fun b₀ hu hb => hb₂ b₀ hu (hb₁ _ _ ?_)⟩
    · exact (Res.bind_of_ok hemit _).trans ((Res.bind_of_ok hstored _).trans hrest)
    · rw [hb, Bridge.feed_ready _ _ (chunksBridge_understands hu), foldl_nextChunk hp]

/-! ### The whole packet -/

/-- What ends a packet: the trailer, unless NO_CS. -/
abbrev trailerEvents (c : SpiConn) (g : Group) : List Event :=
  if c.nocs then [] else [.sent (encodeAll (spiTrailerSeq c g))]

theorem packetEvents_eq (c : SpiConn) (g : Group) (chunk : Nat) (p : Packet) (resp : List Byte) :
    packetEvents c g chunk p resp
      = [.sent (encodeAll (spiHeaderSeq c g) ++ chunkBytes c chunk p 0)] ++ pipelined c chunk p resp 0 (chunkCount chunk p - 1)
        ++ chunkRead chunk p resp (chunkCount chunk p - 1) ++ trailerEvents c g := by
  rw [packetEvents, pipelined_eq, List.range_eq_range']

theorem filled_answered_zero (chunk : Nat) (p : Packet) (resp : List Byte) : filled p (answered chunk p resp 0) = p.r := by
  unfold answered
  cases hasR p
  · rfl
  · rw [Nat.zero_mul, List.take_zero]
    rfl

theorem filled_answered_all {resp : List Byte} {k : Nat} (hp : packetError p = none) (hresp : Answers p resp)
    (hk : packetLen p ≤ k * chunk) : filled p (answered chunk p resp k) = if hasR p then resp else [] := by
  unfold answered
  cases hr : hasR p with
  | false => exact r_of_not_reads hr
  | true =>
    have hlen := hresp hr
    have hle : resp.length ≤ k * chunk := by rwa [hlen, packetLen_of_reads hp hr]
    simp only [if_true]
    rw [List.take_of_length_le hle, filled_whole (Nat.le_of_eq hlen.symm)]

theorem trackSets_header (c : SpiConn) (g : Group) (t : Ste) :
    trackSets (spiHeaderSeq c g) t = { t with grpD := spiHeldGroup c g } := by
  rw [spiHeaderSeq_sets, trackSets_setsLow _ (spiHeader_last c g)]

theorem foldl_header (c : SpiConn) (g : Group) (b : Bridge) :
    (spiHeaderSeq c g).foldl Bridge.command b
      = { b with latchD := (spiHeldGroup c g).val, dirD := spiDir c g } := by
  rw [spiHeaderSeq_sets, foldl_setsLow _ (spiHeader_last c g)]

theorem foldl_firstChunk (hp : packetError p = none) (b : Bridge) :
    (chunkSeq c chunk p p.r 0).foldl Bridge.command b = chunksBridge c chunk p 1 0 b := by
  rw [foldl_chunkSeq, chunkBridge_eq, chunksBridge, chunkSrc_take_succ hp, Nat.zero_mul, Nat.zero_min, List.take_zero,
    List.nil_append]

theorem emitTrailer_went (hc : s.cfg.chip = .cmd) (hg : t.grpD = spiHeldGroup c g)
    (hgives : s.gives (evs ++ trailerEvents c g)) :
    ∃ b', emitTrailer c (s.went evs t b rs)
        = .ok () (s.went (evs ++ trailerEvents c g) { t with grpD := spiIdleGroup c g } b' rs)
      ∧ (b.understands t.mux → b.latchD = (spiHeldGroup c g).val → b.dirD = spiDir c g →
        b' = { b with latchD := spiIdle c g, dirD := spiDir c g }) := by
  have hg' : SpiAlike c g t.grpD := hg ▸ SpiAlike.heldGroup c g
  have hseq := hg'.trailerSeq
  unfold trailerEvents at *
  unfold emitTrailer
  rw [State.went_ste, hseq]
  unfold spiTrailerSeq at *
  cases hcs : c.nocs with
  | true =>
    have hidle : spiIdleGroup c g = t.grpD := by rw [hg, spiHeldGroup, hcs]; rfl
    rw [if_pos rfl, if_pos rfl, List.append_nil, hidle]
    refine ⟨b, rfl, fun _ hlatch hdir => ?_⟩
    have hheld : (spiHeldGroup c g).val = spiIdle c g := by rw [spiHeldGroup, hcs]; rfl
    rw [← hheld, ← hlatch, ← hdir]
  | false =>
    rw [hcs, if_neg nofun, if_neg nofun] at hgives
    rw [if_neg nofun, if_neg nofun]
    refine ⟨Bridge.feed s.cfg t.mux [.setBitsLow (spiIdle c g) (spiDir c g)] b, emitCmds_went hc rfl hgives, fun hu _ _ => ?_⟩
    rw [Bridge.feed_ready _ _ hu]
    rfl

theorem packetBridge_eq (hp : packetError p = none) {k : Nat} (hk : packetLen p ≤ k * chunk) (b : Bridge) (x y : Byte) :
    { chunksBridge c chunk p k k { b with latchD := x, dirD := y } with latchD := spiIdle c g, dirD := spiDir c g }
      = packetBridge c g p b := by
  have hsrc : (chunkSrc p p.r).take (k * chunk) = chunkSrc p p.r :=
    List.take_of_length_le (by rw [chunkSrc_length hp rfl]; exact hk)
  unfold chunksBridge spiProgress packetBridge
  rw [hsrc, Nat.min_eq_right hk, chunkSrc_length hp rfl]
  cases hr : hasR p with
  | false => rfl
  | true => rw [packetLen_of_reads hp hr]

/-- A packet on its own schedule. -/
theorem txPacket_went (hc : s.cfg.chip = .cmd) (hchunk : 1 ≤ s.cfg.pChunk) {resp : List Byte} {j : Nat}
    (hj : rs[j]? = some p.r) (hp : packetError p = none) (hresp : Answers p resp) (hg : SpiAlike c g t.grpD)
    (hgives : s.gives (evs ++ packetEvents c g s.cfg.pChunk p resp)) :
    ∃ b', txPacket c p j (s.went evs t b rs)
        = .ok () (s.went (evs ++ packetEvents c g s.cfg.pChunk p resp) { t with grpD := spiIdleGroup c g } b'
            (rs.set j (if hasR p then resp else [])))
      ∧ (b.understands t.mux → b' = packetBridge c g p b) := by
  obtain ⟨hlt, hget⟩ := List.getElem?_eq_some_iff.mp hj
  obtain ⟨hpos, hall⟩ := chunkCount_spec hchunk hp
  have hlast : (chunkCount s.cfg.pChunk p - 1) * s.cfg.pChunk < packetLen p := ceilDiv_pos_lt (Nat.sub_lt hpos Nat.one_pos)
  have hcount : chunkCount s.cfg.pChunk p - 1 + 1 = chunkCount s.cfg.pChunk p := Nat.sub_add_cancel hpos
  have hstart : rs = rs.set j (filled p []) := by rw [filled_nil, ← hget, List.set_getElem_self]
  rw [packetEvents_eq, ← List.append_assoc, ← List.append_assoc, ← List.append_assoc] at hgives ⊢
  have hread := State.gives_left hgives
  have hchunks := State.gives_left hread
  have hheader := emitChunk_went (c := c) (p := p) (got := []) (j := j) (k := 0) (head := spiHeaderSeq c g) (t := t) (b := b)
    hc hlt (Nat.zero_le _) (State.gives_left hchunks)
  rw [← hstart, trackSets_header] at hheader
  have hzero : rs = rs.set j (filled p (answered s.cfg.pChunk p resp 0)) := by
    rw [filled_answered_zero]
    exact hstart
  obtain ⟨b₁, htx, hb₁⟩ := txChunks_went (k := 0) (t := { t with grpD := spiHeldGroup c g })
    (b := Bridge.feed s.cfg t.mux (spiHeaderSeq c g ++ chunkSeq c s.cfg.pChunk p p.r 0) b) hc hlt hp hresp
    (by rwa [Nat.zero_add]) hchunks
  rw [← hzero] at htx
  simp only [Nat.zero_add] at htx hb₁
  obtain ⟨b₂, hrd, hb₂⟩ := readChunk_went (t := { t with grpD := spiHeldGroup c g }) (b := b₁) hlt hp hresp hlast hread
  rw [hcount] at hrd hb₂
  obtain ⟨b₃, htrailer, hb₃⟩ := emitTrailer_went (t := { t with grpD := spiHeldGroup c g }) (b := b₂)
    (rs := rs.set j (filled p (answered s.cfg.pChunk p resp (chunkCount s.cfg.pChunk p)))) hc rfl hgives
  rw [filled_answered_all hp hresp hall] at htrailer hrd
  refine ⟨b₃, ?_, fun hu => ?_⟩
  · rw [txPacket, State.went_ste, hg.headerSeq, State.went_cfg]
    exact (Res.bind_of_ok hheader _).trans ((Res.bind_of_ok htx _).trans ((Res.bind_of_ok hrd _).trans htrailer))
  · have hfirst : Bridge.feed s.cfg t.mux (spiHeaderSeq c g ++ chunkSeq c s.cfg.pChunk p p.r 0) b
        = chunksBridge c s.cfg.pChunk p 1 0 { b with latchD := (spiHeldGroup c g).val, dirD := spiDir c g } := by
      rw [Bridge.feed_ready _ _ hu, List.foldl_append, foldl_header, foldl_firstChunk hp]
    have hsent := hb₁ { b with latchD := (spiHeldGroup c g).val, dirD := spiDir c g } hu hfirst
    have hbefore := hb₂ _ _ (hcount ▸ hsent)
    subst hbefore
    rw [hb₃ hu rfl rfl, packetBridge_eq hp hall]

end Sys2Proof.Machine
end

section
/-! PROOF. SPI transfers on CMD: the packets of a list, one after the other (R103, R105), and the request of one packet
(R112). -/

namespace Sys2Proof.Machine

variable {s : State} {evs : List Event} {t : Ste} {b : Bridge} {c : SpiConn} {g : Group}

/-- The read buffer a packet leaves. -/
abbrev packetOut (x : Packet × List Byte) : List Byte := if hasR x.1 then x.2 else []

theorem spiTxPackets_of_valid {ps : List Packet} (hspi : s.ste.spi = some c) (hps : ∀ p ∈ ps, packetError p = none)
    (rs : List (List Byte)) : spiTxPackets ps (s.loadBufs rs) = sendPackets c 0 ps (s.went [] s.ste s.bridge rs) := by
  have hnone : packetsError ps = none := by
    induction ps with
    | nil => rfl
    | cons p ps ih =>
      obtain ⟨hp, hps⟩ := List.forall_mem_cons.mp hps
      rw [packetsError, hp, ih hps]
  have hspi' : (s.loadBufs rs).ste.spi = some c := hspi
  rw [spiTxPackets, hspi', hnone, State.loadBufs_went]

theorem sendPacket_cmd (hc : s.cfg.chip = .cmd) (c : SpiConn) (p : Packet) (j : Nat) :
    sendPacket c p j s = txPacket c p j s := by
  rw [sendPacket, hc]

theorem set_length_append (done rest : List (List Byte)) (x y : List Byte) :
    (done ++ x :: rest).set done.length y = done ++ [y] ++ rest := by
  simp

theorem packetBridge_understands {p : Packet} {m : Mux} (hu : b.understands m) : (packetBridge c g p b).understands m := hu

/-- The packets of a list, each on its own schedule. The buffers before them are done with. -/
theorem sendPackets_went (hc : s.cfg.chip = .cmd) (hchunk : 1 ≤ s.cfg.pChunk) {ps : List (Packet × List Byte)}
    {done : List (List Byte)} (hps : ∀ x ∈ ps, packetError x.1 = none ∧ Answers x.1 x.2) (hg : SpiAlike c g t.grpD)
    (hgives : s.gives (evs ++ ps.flatMap fun x => packetEvents c g s.cfg.pChunk x.1 x.2)) :
    ∃ b', sendPackets c done.length (ps.map (·.1)) (s.went evs t b (done ++ ps.map (·.1.r)))
        = .ok () (s.went (evs ++ ps.flatMap fun x => packetEvents c g s.cfg.pChunk x.1 x.2)
            (if ps = [] then t else { t with grpD := spiIdleGroup c g }) b' (done ++ ps.map packetOut))
      ∧ (b.understands t.mux → b' = ps.foldl (fun b x => packetBridge c g x.1 b) b) := by
  induction ps generalizing evs t b done with
  | nil =>
    rw [List.flatMap_nil, List.append_nil]
    exact ⟨b, rfl, fun _ => rfl⟩
  | cons x ps ih =>
    rw [List.flatMap_cons, ← List.append_assoc] at hgives ⊢
    obtain ⟨⟨hp, hresp⟩, hps⟩ := List.forall_mem_cons.mp hps
    obtain ⟨b₁, hpacket, hb₁⟩ := txPacket_went (t := t) (b := b) (rs := done ++ x.1.r :: ps.map (·.1.r)) (j := done.length)
      hc hchunk (by simp) hp hresp hg (State.gives_left hgives)
    obtain ⟨b₂, hrest, hb₂⟩ := ih (t := { t with grpD := spiIdleGroup c g }) (b := b₁) (done := done ++ [packetOut x]) hps
      (SpiAlike.idleGroup c g) hgives
    refine ⟨b₂, ?_, fun hu => ?_⟩
    · rw [set_length_append] at hpacket
      rw [List.length_append, List.length_singleton] at hrest
      rw [List.map_cons, List.map_cons, sendPackets, sendPacket_cmd (s := s.went evs t b _) hc, hpacket,
        Res.bind_ok, hrest, List.map_cons,
        List.append_assoc done]
      cases ps <;> rfl
    · have hb₁ := hb₁ hu
      subst hb₁
      exact hb₂ (packetBridge_understands hu)

/-- Settles O33. -/
theorem packetListOnCmd : Obligations.PacketListOnCmd := by
  intro s c ps evs outs hc ho hspi hchunk hps hgives
  obtain ⟨b, hsend, hb⟩ := sendPackets_went (evs := []) (t := s.ste) (b := s.bridge) (done := []) hc hchunk hps
    (SpiAlike.refl c s.ste.grpD) hgives
  refine ⟨b, request_ok (s := s.loadBufs _) ho ?_, fun hm ha => hb ⟨hm, ha⟩⟩
  have hvalid : ∀ p ∈ ps.map (·.1), packetError p = none := List.forall_mem_map.mpr fun x hx => (hps x hx).1
  rw [spiTxPackets_of_valid hspi hvalid, List.map_map]
  exact Res.reply_of_ok hsend _

/-- Settles O32: the list of the one packet. -/
theorem transferOnCmd : Obligations.TransferOnCmd := by
  intro s c w r resp p out evs hc ho hspi hp hchunk hresp hgives
  have hevs : ([] : List Event) ++ [(p, resp)].flatMap (fun x => packetEvents c s.ste.grpD s.cfg.pChunk x.1 x.2) = evs :=
    List.append_nil _
  obtain ⟨b, hsend, hb⟩ := sendPackets_went (evs := []) (t := s.ste) (b := s.bridge) (done := []) (ps := [(p, resp)]) hc hchunk
    (List.forall_mem_singleton.mpr ⟨hp, hresp⟩) (SpiAlike.refl c s.ste.grpD) (hevs.symm ▸ hgives)
  rw [hevs] at hsend
  refine ⟨b, request_ok (s := s.loadBufs [r]) ho ?_, fun hm ha => hb ⟨hm, ha⟩⟩
  rw [spiTxPackets_of_valid (ps := [txPacketOf w r]) hspi (List.forall_mem_singleton.mpr hp)]
  exact Res.reply_of_ok hsend _

end Sys2Proof.Machine
end

section
/-! PROOF. SPI transfers on BB (R115, R117): each packet is one burst, read back whole. -/

namespace Sys2Proof.Machine

variable {s : State} {evs : List Event} {t : Ste} {b : Bridge} {c : SpiConn} {g : Group}

/-- A frame is that of every group with the same idle level. -/
theorem bbFrameOf_congr {h : Group} (hidle : spiIdle c h = spiIdle c g) (p : Packet) :
    bbFrameOf c h p = bbFrameOf c g p := by
  have hassert : spiAssert c h = spiAssert c g := by rw [spiAssert, hidle, spiAssert]
  rw [bbFrameOf, hidle, hassert, bbFrameOf]

/-- The samples of a packet. -/
abbrev burstSize (p : Packet) : Nat := 16 * max p.w.length p.r.length + 4

/-- A packet with the samples it is answered and the read buffer they decimate to (R117). -/
structure Burst (c : SpiConn) (lag : Nat) (p : Packet) (resp out : List Byte) : Prop where
  valid : packetError p = none
  samples : resp.length = burstSize p
  bytes : out.length = p.r.length
  bits : ∀ j k, j < p.r.length → k < 8 →
    (out.getD j 0).getLsbD (if c.lsbf then k else 7 - k) = (resp.getD (2 + 16 * j + 2 * k + 1 + lag) 0).getLsbD 2

theorem Burst.out_eq {lag : Nat} {p : Packet} {resp out : List Byte} (h : Burst c lag p resp out) :
    out = bbDecimAll c lag resp p.r.length := by
  refine List.ext_getElem (by simp [bbDecimAll, h.bytes]) fun j hj _ => ?_
  have hbyte : out[j] = bbDecim c lag resp j := by
    refine BitVec.eq_of_getLsbD_eq fun i hi => ?_
    obtain ⟨k, hk, rfl⟩ := exists_bitPlace c.lsbf hi
    rw [bbDecim_getLsbD c lag resp j hk, ← List.getD_eq_getElem out 0 hj]
    exact h.bits j k (h.bytes ▸ hj) hk
  simpa [bbDecimAll] using hbyte

/-- What bursts of so many samples leave in the bridge once they are read back. -/
abbrev burstBridge (c : SpiConn) (g : Group) (n : Nat) (b : Bridge) : Bridge :=
  { b with latchD := spiIdle c g, sent := (b.sent ++ List.replicate n Resp.sample).drop n }

theorem drop_replicate_append (sent : List Resp) (m n : Nat) :
    ((sent ++ List.replicate m Resp.sample).drop m ++ List.replicate n Resp.sample).drop n
      = (sent ++ List.replicate (m + n) Resp.sample).drop (m + n) := by
  have hle : m ≤ (sent ++ List.replicate m Resp.sample).length := by
    rw [List.length_append, List.length_replicate]
    exact Nat.le_add_left ..
  rw [← List.drop_append_of_le_length hle, List.drop_drop, List.append_assoc, ← List.replicate_add]

/-- Reading the burst back replaces the packet's read buffer. -/
theorem Burst.stores {p : Packet} {resp out : List Byte} (h : Burst c s.cfg.syncLag p resp out) (done rest : List
    (List Byte)) :
    (if hasR p then
        (s.went evs t b (done ++ p.r :: rest)).writeBuf done.length 0 (bbDecimAll c s.cfg.syncLag resp (packetLen p))
      else s.went evs t b (done ++ p.r :: rest)) = s.went evs t b (done ++ [out] ++ rest) := by
  cases hr : hasR p with
  | true =>
    have hout : bbDecimAll c s.cfg.syncLag resp (packetLen p) = out := by
      rw [h.out_eq, packetLen_of_reads h.valid hr]
    have hwhole : memWrite p.r 0 out = out := by simp [memWrite, ← h.bytes]
    rw [if_pos rfl, State.went_writeBuf, hout, List.getD_append_right _ _ _ _ (Nat.le_refl _), Nat.sub_self,
      List.getD_cons_zero, hwhole, set_length_append]
  | false =>
    have hnone : p.r = out := by
      have hbytes := h.bytes
      rw [r_of_not_reads hr] at hbytes ⊢
      exact (List.length_eq_zero_iff.mp hbytes).symm
    rw [if_neg nofun, hnone, List.append_assoc]
    rfl

/-- One packet, from the buffers before it to those after it. -/
theorem bbPacket_went (hm : t.mux = .syncBb) {p : Packet} {resp out : List Byte} {done rest : List (List Byte)}
    (h : Burst c s.cfg.syncLag p resp out) (hidle : spiIdle c t.grpD = spiIdle c g)
    (hgives : s.gives (evs ++ burstEvents c g p resp)) :
    bbPacket c p done.length (s.went evs t b (done ++ p.r :: rest))
      = .ok () (s.went (evs ++ burstEvents c g p resp) { t with grpD := { t.grpD with val := spiIdle c g } }
          (burstBridge c g (burstSize p) b) (done ++ [out] ++ rest)) := by
  have hframe : (bbFrameOf c g p).length = resp.length := by rw [bbFrameOf_length_of_valid c g h.valid, h.samples]
  rw [burstEvents, append_pair] at hgives ⊢
  have hall : resp.length ≤ (b.sent ++ List.replicate resp.length Resp.sample).length := by
    rw [List.length_append, List.length_replicate]
    exact Nat.le_add_left ..
  have hwrite := emitSamples_went (t := t) (b := b) (rs := done ++ p.r :: rest) hm (bbFrameOf_getLast? c g p)
    (State.gives_left hgives)
  rw [hframe] at hwrite
  simp only [bbPacket, State.went_ste, bbFrameOf_congr hidle, hframe]
  rw [Res.bind_of_ok hwrite, Res.bind_of_ok (rd_went hgives), Bridge.consume_of_le hall, ← h.samples]
  exact congrArg (Res.ok ()) (h.stores done rest)

theorem sendPacket_bb (hc : s.cfg.chip = .bb) (c : SpiConn) (p : Packet) (j : Nat) :
    sendPacket c p j s = bbPacket c p j s := by
  rw [sendPacket, hc]

/-- The packets of a list, each as one burst. -/
theorem sendBursts_went (hc : s.cfg.chip = .bb) (hm : t.mux = .syncBb) {ps : List (Packet × List Byte × List Byte)}
    {done : List (List Byte)} (hps : ∀ x ∈ ps, Burst c s.cfg.syncLag x.1 x.2.1 x.2.2) (hidle : spiIdle c t.grpD = spiIdle c g)
    (hgives : s.gives (evs ++ ps.flatMap fun x => burstEvents c g x.1 x.2.1)) :
    sendPackets c done.length (ps.map (·.1)) (s.went evs t b (done ++ ps.map (·.1.r)))
      = .ok () (s.went (evs ++ ps.flatMap fun x => burstEvents c g x.1 x.2.1)
          (if ps = [] then t else { t with grpD := { t.grpD with val := spiIdle c g } })
          { b with
            latchD := if ps = [] then b.latchD else spiIdle c g
            sent := (b.sent ++ List.replicate (ps.map fun x => burstSize x.1).sum Resp.sample).drop
              (ps.map fun x => burstSize x.1).sum }
          (done ++ ps.map (·.2.2))) := by
  induction ps generalizing evs t b done with
  | nil => simp [sendPackets]
  | cons x ps ih =>
    obtain ⟨hx, hps⟩ := List.forall_mem_cons.mp hps
    rw [List.flatMap_cons, ← List.append_assoc] at hgives ⊢
    have hpacket := bbPacket_went (b := b) (done := done) (rest := ps.map (·.1.r)) hm hx hidle (State.gives_left hgives)
    have hidle' : spiIdle c { t.grpD with val := spiIdle c g } = spiIdle c g := by
      rw [spiIdle, spiIdle_masked, spiIdle]
    have hrest := ih (t := { t with grpD := { t.grpD with val := spiIdle c g } })
      (b := burstBridge c g (burstSize x.1) b)
      (done := done ++ [x.2.2]) hm hps hidle' hgives
    rw [List.length_append, List.length_singleton] at hrest
    rw [List.map_cons, List.map_cons, sendPackets, sendPacket_bb (s := s.went evs t b _) hc, hpacket,
      Res.bind_ok, hrest, drop_replicate_append, List.append_assoc done]
    cases ps <;> rfl

/-- Settles O35. -/
theorem transferOnBb : Obligations.TransferOnBb := by
  intro s c ps size evs outs idle total ends hc ho hm hspi hps hgives
  have hbursts : ∀ x ∈ ps, Burst c s.cfg.syncLag x.1 x.2.1 x.2.2 := by
    intro x hx
    obtain ⟨hvalid, hsamples, hbytes, hbits⟩ := hps x hx
    exact ⟨hvalid, hsamples, hbytes, hbits⟩
  have hsend := sendBursts_went (evs := []) (t := s.ste) (b := s.bridge) (done := []) hc hm hbursts rfl hgives
  have hvalid : ∀ p ∈ ps.map (·.1), packetError p = none := List.forall_mem_map.mpr fun x hx => (hbursts x hx).valid
  refine ⟨request_ok (s := s.loadBufs _) ho ?_, ?_⟩
  · rw [spiTxPackets_of_valid hspi hvalid, List.map_map]
    exact Res.reply_of_ok hsend _
  · rintro w r resp out rfl
    refine request_ok (s := s.loadBufs [r]) ho ?_
    rw [spiTxPackets_of_valid (ps := [txPacketOf w r]) hspi hvalid]
    exact Res.reply_of_ok hsend _

end Sys2Proof.Machine
end

section
/-! PROOF. The streams of an SPI transfer that succeeded (R109). Its events can only have been those of the packet's schedule,
with the answer they brought; what the schedule writes and reads, joined, does not depend on the chunk size. -/

namespace Sys2Proof.Machine

variable {s u : State} {evs : List Event} {t : Ste} {b : Bridge} {rs : List (List Byte)} {c : SpiConn} {g : Group}
  {p : Packet} {chunk : Nat}

/-! ### What success says of the events -/

theorem State.gives_went {xs : List Event} (hevs : s.gives evs) (h : (s.went evs t b rs).gives xs) : s.gives (evs ++ xs) :=
  (s.gives_append evs xs t b rs).mpr ⟨hevs, h⟩

theorem emitChunk_went_ok (hc : s.cfg.chip = .cmd) {got : List Byte} {j k : Nat} {head : List Instr} (hj : j < rs.length)
    (hlen : got.length ≤ k * s.cfg.pChunk) (hevs : s.gives evs) {a : Unit}
    (h : emitChunk c p j k head (s.went evs t b (rs.set j (filled p got))) = .ok a u) :
    s.gives (evs ++ [.sent (encodeAll head ++ chunkBytes c s.cfg.pChunk p k)])
      ∧ u = s.went (evs ++ [.sent (encodeAll head ++ chunkBytes c s.cfg.pChunk p k)]) (trackSets head t)
          (Bridge.feed s.cfg t.mux (head ++ chunkSeq c s.cfg.pChunk p p.r k) b) (rs.set j (filled p got)) := by
  have hbuf : (s.went evs t b (rs.set j (filled p got))).buf j = filled p got := by simp [State.buf, hj]
  have hgives : s.gives (evs ++ [.sent (encodeAll head ++ chunkBytes c s.cfg.pChunk p k)]) := by
    have hsent := h
    rw [emitChunk, hbuf, State.went_cfg, chunkSeq_filled hlen] at hsent
    have hgives := State.gives_went hevs (emitCmds_ok (s := s.went evs t b _) hc hsent).1
    rwa [encodeAll_append] at hgives
  rw [emitChunk_went hc hj hlen hgives] at h
  cases h
  exact ⟨hgives, rfl⟩

/-- The read of a chunk that brought `x`. -/
abbrev gotEvents (p : Packet) (x : List Byte) : List Event := if hasR p then [.got x] else []

/-- So much of the answer is in after the first `k` chunks. -/
abbrev GotChunks (chunk : Nat) (p : Packet) (got : List Byte) (k : Nat) : Prop :=
  got.length = if hasR p then k * chunk else 0

/-- This is an answer to chunk `k`. -/
abbrev GotChunk (chunk : Nat) (p : Packet) (x : List Byte) (k : Nat) : Prop :=
  x.length = if hasR p then chunkLen chunk p k else 0

theorem chunkRead_eq {got x rest : List Byte} {k : Nat} (hgot : GotChunks chunk p got k) (hx : GotChunk chunk p x k) :
    chunkRead chunk p (got ++ x ++ rest) k = gotEvents p x := by
  unfold chunkRead gotEvents GotChunks GotChunk at *
  cases hr : hasR p with
  | false => rfl
  | true =>
    rw [hr, if_pos rfl] at hgot hx
    have hanswer : answerChunk chunk p (got ++ x ++ rest) k = x := by
      rw [answerChunk, memRead, ← hgot, List.append_assoc, List.drop_left, ← hx, List.take_left]
    rw [hanswer]

theorem GotChunks.le {got : List Byte} {k : Nat} (hgot : GotChunks chunk p got k) : got.length ≤ k * chunk := by
  unfold GotChunks at hgot
  split at hgot
  · exact Nat.le_of_eq hgot
  · exact hgot ▸ Nat.zero_le _

theorem readChunk_went_ok (hp : packetError p = none) {got : List Byte} {j k : Nat} (hj : j < rs.length)
    (hgot : GotChunks s.cfg.pChunk p got k) (hk : k * s.cfg.pChunk < packetLen p) (hevs : s.gives evs) {a : Unit}
    (h : readChunk p j k (s.went evs t b (rs.set j (filled p got))) = .ok a u) :
    ∃ x b', GotChunk s.cfg.pChunk p x k ∧ s.gives (evs ++ gotEvents p x)
      ∧ u = s.went (evs ++ gotEvents p x) t b' (rs.set j (filled p (got ++ x))) := by
  unfold gotEvents GotChunks GotChunk at *
  cases hr : hasR p with
  | false =>
    rw [readChunk_skips hr] at h
    cases h
    exact ⟨[], b, rfl, by simpa using hevs, by simp⟩
  | true =>
    rw [hr, if_pos rfl] at hgot
    have hread := h
    rw [readChunk, if_pos hr, State.went_cfg] at hread
    obtain ⟨x, v, hrd, -⟩ := Res.bind_eq_ok.mp hread
    obtain ⟨hgives, hx, -⟩ := rd_ok hrd
    have hfits : got.length + x.length ≤ p.r.length := by
      rw [hgot, hx, chunkLen_add k hk, packetLen_of_reads hp hr]
      exact Nat.min_le_right ..
    have hgives' : s.gives (evs ++ [.got x]) := State.gives_went hevs (hx ▸ hgives)
    rw [readChunk_stores hr hj hx hgot hfits hgives'] at h
    cases h
    exact ⟨x, _, hx, hgives', rfl⟩

theorem chunkLen_of_next {k : Nat} (hk : (k + 1) * chunk < packetLen p) : chunkLen chunk p k = chunk := by
  rw [Nat.succ_mul] at hk
  rw [chunkLen]
  omega

theorem GotChunks.append {got x : List Byte} {k : Nat} (hgot : GotChunks chunk p got k) (hx : GotChunk chunk p x k)
    (hk : (k + 1) * chunk < packetLen p) : GotChunks chunk p (got ++ x) (k + 1) := by
  unfold GotChunks GotChunk at *
  rw [List.length_append, hgot, hx, chunkLen_of_next hk, Nat.succ_mul]
  split <;> rfl

theorem txChunks_went_ok (hc : s.cfg.chip = .cmd) (hp : packetError p = none) {got : List Byte} {j k count : Nat}
    (hj : j < rs.length) (hgot : GotChunks s.cfg.pChunk p got k) (hk : (k + count) * s.cfg.pChunk < packetLen p)
    (hevs : s.gives evs) {a : Unit} (h : txChunks c p j count (k + 1) (s.went evs t b (rs.set j (filled p got))) = .ok a u) :
    ∃ more es b', GotChunks s.cfg.pChunk p (got ++ more) (k + count)
      ∧ (∀ rest, pipelined c s.cfg.pChunk p (got ++ more ++ rest) k count = es) ∧ s.gives (evs ++ es)
      ∧ u = s.went (evs ++ es) t b' (rs.set j (filled p (got ++ more))) := by
  induction count generalizing k got evs b with
  | zero =>
    cases h
    exact ⟨[], [], b, by rwa [List.append_nil], fun _ => rfl, by rwa [List.append_nil], by simp⟩
  | succ count ih =>
    rw [← Nat.add_assoc, Nat.add_right_comm] at hk ⊢
    have hkk : (k + 1) * s.cfg.pChunk < packetLen p :=
      Nat.lt_of_le_of_lt (Nat.mul_le_mul_right _ (Nat.le_add_right ..)) hk
    have hlt : k * s.cfg.pChunk < packetLen p := Nat.lt_of_le_of_lt (Nat.mul_le_mul_right _ (Nat.le_succ k)) hkk
    obtain ⟨_, v, hemit, h⟩ := Res.bind_eq_ok.mp h
    obtain ⟨_, w, hread, h⟩ := Res.bind_eq_ok.mp h
    obtain ⟨hsent, rfl⟩ := emitChunk_went_ok hc hj (Nat.le_trans hgot.le (Nat.mul_le_mul_right _ (Nat.le_succ k))) hevs hemit
    obtain ⟨x, b₁, hx, hgives, rfl⟩ := readChunk_went_ok hp hj hgot hlt hsent hread
    obtain ⟨more, es, b₂, hmore, hes, hgives', rfl⟩ := ih (hgot.append hx hkk) hk hgives h
    refine ⟨x ++ more, .sent (chunkBytes c s.cfg.pChunk p (k + 1)) :: gotEvents p x ++ es, b₂, ?_, fun rest => ?_, ?_, ?_⟩
    · rwa [← List.append_assoc]
    · have hread := chunkRead_eq (rest := more ++ rest) hgot hx
      have hes := hes rest
      simp only [List.append_assoc] at hread hes ⊢
      rw [pipelined, hread, hes]
    · simpa [encodeAll] using hgives'
    · simp [encodeAll, List.append_assoc]

theorem emitTrailer_went_ok (hc : s.cfg.chip = .cmd) (hg : t.grpD = spiHeldGroup c g) (hevs : s.gives evs) {a : Unit}
    (h : emitTrailer c (s.went evs t b rs) = .ok a u) : s.gives (evs ++ trailerEvents c g) := by
  have hseq := (hg ▸ SpiAlike.heldGroup c g : SpiAlike c g t.grpD).trailerSeq
  unfold emitTrailer at h
  unfold trailerEvents
  rw [State.went_ste, hseq] at h
  cases hcs : c.nocs with
  | true => rwa [if_pos rfl, List.append_nil]
  | false =>
    have hsent : spiTrailerSeq c g = [.setBitsLow (spiIdle c g) (spiDir c g)] := by rw [spiTrailerSeq, hcs]; rfl
    rw [hsent] at h
    rw [if_neg nofun, hsent]
    exact State.gives_went hevs (emitCmds_ok (s := s.went evs t b rs) hc h).1

/-- A packet that went through had the events of its schedule, with some answer of its length. -/
theorem txPacket_went_ok (hc : s.cfg.chip = .cmd) (hchunk : 1 ≤ s.cfg.pChunk) {j : Nat} (hj : rs[j]? = some p.r)
    (hp : packetError p = none) (hg : SpiAlike c g t.grpD) (hevs : s.gives evs) {a : Unit}
    (h : txPacket c p j (s.went evs t b rs) = .ok a u) :
    ∃ resp, Answers p resp ∧ s.gives (evs ++ packetEvents c g s.cfg.pChunk p resp) := by
  obtain ⟨hlt, hget⟩ := List.getElem?_eq_some_iff.mp hj
  obtain ⟨hpos, hall⟩ := chunkCount_spec hchunk hp
  have hlast : (chunkCount s.cfg.pChunk p - 1) * s.cfg.pChunk < packetLen p := ceilDiv_pos_lt (Nat.sub_lt hpos Nat.one_pos)
  have hcount : chunkCount s.cfg.pChunk p - 1 + 1 = chunkCount s.cfg.pChunk p := Nat.sub_add_cancel hpos
  have hstart : rs = rs.set j (filled p []) := by rw [filled_nil, ← hget, List.set_getElem_self]
  have hnone : GotChunks s.cfg.pChunk p [] 0 := by unfold GotChunks; split <;> simp
  rw [txPacket, State.went_ste, hg.headerSeq, State.went_cfg, hstart] at h
  obtain ⟨_, v, hemit, h⟩ := Res.bind_eq_ok.mp h
  obtain ⟨_, w, htx, h⟩ := Res.bind_eq_ok.mp h
  obtain ⟨_, y, hread, h⟩ := Res.bind_eq_ok.mp h
  obtain ⟨hsent, rfl⟩ := emitChunk_went_ok hc hlt (Nat.zero_le _) hevs hemit
  rw [trackSets_header] at htx
  obtain ⟨more, es, b₁, hmore, hes, hgives, rfl⟩ := txChunks_went_ok (k := 0) hc hp hlt hnone
    (by rwa [Nat.zero_add]) hsent htx
  rw [Nat.zero_add] at hmore
  obtain ⟨x, b₂, hx, hgives', rfl⟩ := readChunk_went_ok hp hlt hmore hlast hgives hread
  have htrailer := emitTrailer_went_ok (g := g) hc rfl hgives' h
  refine ⟨more ++ x, fun hr => ?_, ?_⟩
  · have hlen : ([] ++ more).length + x.length = packetLen p := by
      unfold GotChunks at hmore
      unfold GotChunk at hx
      rw [hmore, hx, if_pos hr, if_pos hr, chunkLen_add _ hlast, hcount, Nat.min_eq_right hall]
    rw [packetLen_of_reads hp hr, ← hlen, List.length_append]
    rfl
  · have hreads := chunkRead_eq (rest := []) hmore hx
    have hes := hes x
    simp only [List.nil_append, List.append_nil] at hreads hes
    rw [packetEvents_eq, hreads, hes]
    simpa [List.append_assoc] using htrailer

/-! ### What a packet's schedule writes and reads -/

theorem commandStream_append (xs ys : List Event) : commandStream (xs ++ ys) = commandStream xs ++ commandStream ys :=
  List.flatMap_append

theorem responseStream_append (xs ys : List Event) : responseStream (xs ++ ys) = responseStream xs ++ responseStream ys :=
  List.flatMap_append

theorem commandStream_chunkRead (chunk : Nat) (p : Packet) (resp : List Byte) (k : Nat) :
    commandStream (chunkRead chunk p resp k) = [] := by
  unfold chunkRead
  split <;> rfl

theorem responseStream_chunkRead (chunk : Nat) (p : Packet) (resp : List Byte) (k : Nat) :
    responseStream (chunkRead chunk p resp k) = if hasR p then answerChunk chunk p resp k else [] := by
  unfold chunkRead
  split
  · exact List.append_nil _
  · rfl

theorem commandStream_pipelined (c : SpiConn) (chunk : Nat) (p : Packet) (resp : List Byte) (k count : Nat) :
    commandStream (pipelined c chunk p resp k count) = (List.range' (k + 1) count).flatMap (chunkBytes c chunk p) := by
  induction count generalizing k with
  | zero => rfl
  | succ count ih =>
    rw [pipelined, commandStream_append, ih, List.range'_succ, List.flatMap_cons, ← List.singleton_append, commandStream_append,
      commandStream_chunkRead, List.append_nil]
    simp [commandStream]

/-- The answer so far and one more chunk of it. -/
theorem answered_chunkRead {resp : List Byte} (hp : packetError p = none) (hresp : Answers p resp) (k : Nat) :
    answered chunk p resp k ++ responseStream (chunkRead chunk p resp k) = answered chunk p resp (k + 1) := by
  rw [responseStream_chunkRead]
  unfold answered
  cases hr : hasR p with
  | false => rfl
  | true => exact (take_succ_chunk ((hresp hr).trans (packetLen_of_reads hp hr)) k).symm

theorem responseStream_pipelined {resp : List Byte} (hp : packetError p = none) (hresp : Answers p resp) {k count : Nat} :
    answered chunk p resp k ++ responseStream (pipelined c chunk p resp k count) = answered chunk p resp (k + count) := by
  induction count generalizing k with
  | zero => exact List.append_nil _
  | succ count ih =>
    rw [pipelined, responseStream_append, ← List.singleton_append, responseStream_append, ← List.append_assoc]
    show answered chunk p resp k ++ responseStream (chunkRead chunk p resp k) ++ _ = _
    rw [answered_chunkRead hp hresp, ih, Nat.add_right_comm, Nat.add_assoc]

/-- The bytes written do not depend on what is read (R29). -/
theorem commandStream_packetEvents (c : SpiConn) (g : Group) (hchunk : 1 ≤ chunk) (hp : packetError p = none)
    (resp : List Byte) :
    commandStream (packetEvents c g chunk p resp)
      = encodeAll (spiHeaderSeq c g) ++ (List.range (chunkCount chunk p)).flatMap (chunkBytes c chunk p)
        ++ encodeAll (spiTrailerSeq c g) := by
  obtain ⟨hpos, -⟩ := chunkCount_spec hchunk hp
  obtain ⟨m, hm⟩ := Nat.exists_eq_add_of_le' hpos
  have htrailer : commandStream (trailerEvents c g) = encodeAll (spiTrailerSeq c g) := by
    rw [trailerEvents, encodeAll_spiTrailerSeq]
    cases c.nocs <;> rfl
  rw [packetEvents_eq, commandStream_append, commandStream_append, commandStream_append, commandStream_chunkRead,
    commandStream_pipelined, htrailer, hm, List.range_eq_range', List.range'_succ, List.flatMap_cons]
  simp [commandStream]

/-- The bytes read are the answer. -/
theorem responseStream_packetEvents {resp : List Byte} (c : SpiConn) (g : Group) (hchunk : 1 ≤ chunk)
    (hp : packetError p = none) (hresp : Answers p resp) :
    responseStream (packetEvents c g chunk p resp) = if hasR p then resp else [] := by
  obtain ⟨hpos, hall⟩ := chunkCount_spec hchunk hp
  have hzero : answered chunk p resp 0 = [] := List.eq_nil_of_length_eq_zero
    (Nat.le_zero.mp (Nat.le_trans (answered_length_le chunk p resp 0) (Nat.zero_mul chunk).le))
  have hchunks := responseStream_pipelined (c := c) (chunk := chunk) (k := 0) (count := chunkCount chunk p - 1) hp hresp
  have hlast := answered_chunkRead (chunk := chunk) hp hresp (chunkCount chunk p - 1)
  rw [hzero, List.nil_append, Nat.zero_add] at hchunks
  rw [← hchunks, Nat.sub_add_cancel hpos] at hlast
  have htrailer : responseStream (trailerEvents c g) = [] := by
    rw [trailerEvents]
    cases c.nocs <;> rfl
  rw [packetEvents_eq, responseStream_append, responseStream_append, responseStream_append, htrailer, List.append_nil,
    List.append_assoc, hlast]
  unfold answered
  cases hr : hasR p with
  | false => rfl
  | true =>
    have hle : resp.length ≤ chunkCount chunk p * chunk := by rwa [hresp hr, packetLen_of_reads hp hr]
    simp only [if_true, List.take_of_length_le hle]
    rfl

/-- The bytes of a chunk of a transfer, written out (R106). -/
theorem chunkBytes_txPacketOf {w r : List Byte} (hp : packetError (txPacketOf w r) = none) (k : Nat) :
    chunkBytes c chunk (txPacketOf w r) k
      = [0x10 ||| (if c.cpol = c.cpha then 0x01 else 0) ||| (if c.lsbf then 0x08 else 0)
          ||| (if r = [] then 0 else 0x20 ||| (if c.cpol = c.cpha then 0 else 0x04)),
          BitVec.ofNat 8 ((min chunk (max w.length r.length - k * chunk) - 1) % 256),
          BitVec.ofNat 8 ((min chunk (max w.length r.length - k * chunk) - 1) / 256 % 256)]
        ++ ((if w = [] then r else w).drop (k * chunk)).take (min chunk (max w.length r.length - k * chunk))
        ++ (if r = [] then [] else [0x87]) := by
  have hreads : (hasR (txPacketOf w r) = true) = ¬r = [] := by
    rw [hasR_eq]
    cases r <;> simp [txPacketOf]
  have hsrc : chunkSrc (txPacketOf w r) r = if w = [] then r else w := by
    refine (chunkSrc_eq (txPacketOf w r)).trans ?_
    cases w <;> rfl
  have hdata : chunkData chunk (txPacketOf w r) r k
      = ((if w = [] then r else w).drop (k * chunk)).take (min chunk (max w.length r.length - k * chunk)) := by
    rw [chunkData, hsrc]
    rfl
  have hbytes := encodeAll_chunk (c := c) (chunk := chunk) (r := r) k hp rfl
  rw [chunkSel_opcode, field16_mod, hdata] at hbytes
  simp only [hreads, ite_not] at hbytes
  exact hbytes

/-- A transfer that ended with ok had its packet's events, and an answer of its length. -/
theorem exec_spiTx_ok {v : Reply} {w r : List Byte} (hc : s.cfg.chip = .cmd) (hspi : s.ste.spi = some c)
    (hchunk : 1 ≤ s.cfg.pChunk) (h : exec (.spiTx w r) s = .next u) (hlast : u.results.getLast? = some ⟨none, v⟩) :
    s.ste.dev = .opened ∧ packetError (txPacketOf w r) = none
      ∧ ∃ resp, Answers (txPacketOf w r) resp ∧ s.gives (packetEvents c s.ste.grpD s.cfg.pChunk (txPacketOf w r) resp) := by
  obtain ⟨ho, v, hbody, -⟩ := request_done (s := s.loadBufs [r]) h hlast
  obtain ⟨⟨⟩, v, hsend, -⟩ := Res.bind_eq_ok.mp hbody
  have hp : packetError (txPacketOf w r) = none := by
    by_contra hne
    obtain ⟨e, he⟩ := Option.ne_none_iff_exists'.mp hne
    have hbad : packetsError [txPacketOf w r] = some e := packetsError_append (good := []) nofun he []
    rw [spiTxPackets_of_error (s := s.loadBufs [r]) hspi hbad] at hsend
    cases hsend
  rw [spiTxPackets_of_valid (ps := [txPacketOf w r]) hspi (List.forall_mem_singleton.mpr hp), sendPackets,
    sendPacket_cmd (s := s.went [] _ _ _) hc] at hsend
  obtain ⟨⟨⟩, w, htx, -⟩ := Res.bind_eq_ok.mp hsend
  exact ⟨ho, hp, txPacket_went_ok (evs := []) hc hchunk rfl hp (SpiAlike.refl c s.ste.grpD) rfl htx⟩

/-- Settles O34: such a transfer is the one O32 speaks of. -/
theorem packetStreams : Obligations.PacketStreams := by
  intro s t c w r x g mask dir idle assert n op chunk hc hspi hchunk h hresults
  obtain ⟨ho, hp, resp, hresp, hgives⟩ := exec_spiTx_ok hc hspi hchunk h (by rw [hresults, List.getLast?_concat])
  obtain ⟨b, hran, -⟩ := transferOnCmd s c w r resp hc ho hspi hp hchunk hresp hgives
  rw [hran] at h
  cases h
  have hx : (if hasR (txPacketOf w r) then resp else []) = x := by
    have hlast := congrArg List.getLast? hresults
    rw [State.ran_results, List.getLast?_concat, List.getLast?_concat] at hlast
    cases hlast
    rfl
  refine ⟨_, rfl, ?_, ?_, ?_, ?_⟩
  · have hchunks : chunkBytes c s.cfg.pChunk (txPacketOf w r) = chunk := funext (chunkBytes_txPacketOf hp)
    have hdir : spiDir c g = dir := spiDir_eq c g
    have hidle : spiIdle c g = idle := spiIdle_eq c g
    have hassert : spiAssert c g = assert := by rw [spiAssert_eq, hidle]
    refine (commandStream_packetEvents c g hchunk hp resp).trans ?_
    rw [hchunks, encodeAll_spiHeaderSeq, encodeAll_spiTrailerSeq, hdir, hidle, hassert]
    rfl
  · exact (responseStream_packetEvents c g hchunk hp hresp).trans hx
  · rw [← hx]
    cases hr : hasR (txPacketOf w r) with
    | true => exact hresp hr
    | false => exact congrArg List.length (r_of_not_reads hr).symm
  · exact congrArg (fun y => [y]) hx

end Sys2Proof.Machine
end

section
/-! PROOF. What the events of a request leave in the STE, as far as they went (R146 to R148): the clock cache, the group values
and directions, and, where an event failed, that it was the last one. -/

namespace Sys2Proof.Machine

/-! ### Group values and directions -/

/-- The values and directions of both groups. -/
abbrev Ste.groupPins (t : Ste) : (Byte × Byte) × (Byte × Byte) := ((t.grpD.val, t.grpD.dir), (t.grpC.val, t.grpC.dir))

theorem trackSet_groupPins {t u : Ste} (h : t.groupPins = u.groupPins) (i : Instr) :
    (trackSet t i).groupPins = (trackSet u i).groupPins := by
  obtain ⟨hd, hc⟩ := Prod.ext_iff.mp h
  unfold trackSet
  split
  · exact Prod.ext rfl hc
  · exact Prod.ext hd rfl
  · exact h

/-- What sets leave depends on the values and directions alone. -/
theorem trackSets_groupPins {t u : Ste} (h : t.groupPins = u.groupPins) (cs : List Instr) :
    (trackSets cs t).groupPins = (trackSets cs u).groupPins := by
  induction cs generalizing t u with
  | nil => exact h
  | cons i cs ih => exact ih (trackSet_groupPins h i)

theorem Ste.setIndet_groupPins (t : Ste) (g : GroupId) (b : Bool) : (t.setIndet g b).groupPins = t.groupPins := by
  cases g <;> rfl

/-- A failed write of commands leaves them alone. -/
theorem trackFails_groupPins (cs : List Instr) (t : Ste) : (trackFails cs t).groupPins = t.groupPins := by
  induction cs generalizing t with
  | nil => rfl
  | cons i cs ih =>
    refine (ih _).trans ?_
    unfold trackFail
    split
    · exact t.setIndet_groupPins _ _
    · exact t.setIndet_groupPins _ _
    · rfl

/-! ### What successful events leave -/

theorem directions_append (xs ys : List Event) : directions (xs ++ ys) = directions xs ++ directions ys :=
  List.filterMap_append

theorem getLast?_append_getD {α : Type} (xs ys : List α) (x : α) :
    (xs ++ ys).getLast?.getD x = ys.getLast?.getD (xs.getLast?.getD x) := by
  rw [List.getLast?_append]
  cases ys.getLast? <;> rfl

/-- These events, all successful, leave the groups of `t` from those of `s` (R147 (c)). -/
structure State.Sets (s : State) (evs : List Event) (t : State) : Prop where
  ok : ∀ x ∈ evs, x.error = none
  cmd : s.cfg.chip = .cmd → s.cfg.ok = true → ∃ cs : List Instr, (∀ x ∈ cs, x.emittable = true)
    ∧ commandStream evs = encodeAll cs ∧ t.ste.groupPins = (trackSets cs s.ste).groupPins
  bb : s.cfg.chip = .bb → t.ste.grpD.val = (commandStream evs).getLast?.getD s.ste.grpD.val
    ∧ t.ste.grpD.dir = (directions evs).getLast?.getD s.ste.grpD.dir
    ∧ t.ste.bbdir = (directions evs).getLast?.getD s.ste.bbdir

/-- Nothing that says anything about the groups. -/
theorem State.Sets.of_same {s t : State} {evs : List Event} (hok : ∀ x ∈ evs, x.error = none) (hcmd : commandStream evs = [])
    (hdir : directions evs = []) (hpins : t.ste.groupPins = s.ste.groupPins) (hbb : s.cfg.chip = .bb → t.ste.bbdir = s.ste.bbdir) :
    s.Sets evs t where
  ok := hok
  cmd := fun _ _ => ⟨[], nofun, hcmd, hpins⟩
  bb := fun hc => by
    rw [hcmd, hdir]
    exact ⟨congrArg (·.1.1) hpins, congrArg (·.1.2) hpins, hbb hc⟩

theorem State.Sets.none {s t : State} (hpins : t.ste.groupPins = s.ste.groupPins)
    (hbb : s.cfg.chip = .bb → t.ste.bbdir = s.ste.bbdir) :
    s.Sets [] t := .of_same nofun rfl rfl hpins hbb

theorem State.Sets.trans {s t u : State} {xs ys : List Event} (hcfg : t.cfg = s.cfg) (h : s.Sets xs t) (k : t.Sets ys u) :
    s.Sets (xs ++ ys) u where
  ok := List.forall_mem_append.mpr ⟨h.ok, k.ok⟩
  cmd := fun hc hp => by
    obtain ⟨cs, hcs, hs, hpins⟩ := h.cmd hc hp
    obtain ⟨ds, hds, hs', hpins'⟩ := k.cmd (hcfg ▸ hc) (hcfg ▸ hp)
    refine ⟨cs ++ ds, List.forall_mem_append.mpr ⟨hcs, hds⟩, ?_, ?_⟩
    · rw [commandStream_append, hs, hs', encodeAll_append]
    · rw [hpins', trackSets_append]
      exact trackSets_groupPins hpins ds
  bb := fun hc => by
    obtain ⟨hval, hdir, hbb⟩ := h.bb hc
    obtain ⟨hval', hdir', hbb'⟩ := k.bb (hcfg ▸ hc)
    rw [commandStream_append, directions_append, getLast?_append_getD, getLast?_append_getD, getLast?_append_getD, ← hval,
      ← hdir, ← hbb]
    exact ⟨hval', hdir', hbb'⟩

/-! ### How far a request got -/

/-- These events succeeded; the clock cache holds the target if one of them set the clock (R147 (b)). -/
structure State.Got (target : Option Rat) (s : State) (evs : List Event) (t : State) : Prop where
  did : s.Did evs t
  sets : s.Sets evs t
  clk : t.ste.clk = if evs.any isClockEvent then target else s.ste.clk

/-- These events succeeded, and then one failed. -/
structure State.Failed (target : Option Rat) (s : State) (evs : List Event) (last : Event) (e : Err) (t : State) : Prop where
  did : s.Did (evs ++ [last]) t
  sets : s.Sets evs t
  error : last.error = some e
  clk : t.ste.clk = if isClockEvent last then none else if evs.any isClockEvent then target else s.ste.clk

/-- Some successful events lead from `s` to `t`. -/
def State.Gets (target : Option Rat) (s t : State) : Prop := ∃ evs, s.Got target evs t

/-- A transport error is a last event's. -/
def State.Fails (target : Option Rat) (e : Err) (s t : State) : Prop :=
  e.class = .transport → ∃ evs last, s.Failed target evs last e t

variable {target : Option Rat} {s t u : State}

theorem State.Gets.of_same (hdid : s.Did [] t) (hpins : t.ste.groupPins = s.ste.groupPins)
    (hbb : s.cfg.chip = .bb → t.ste.bbdir = s.ste.bbdir)
    (hclk : t.ste.clk = s.ste.clk) : s.Gets target t :=
  ⟨[], hdid, .none hpins hbb, hclk⟩

theorem State.Gets.refl (s : State) : s.Gets target s :=
  .of_same (.refl s) rfl (fun _ => rfl) rfl

theorem State.Gets.trans (h : s.Gets target t) (k : t.Gets target u) : s.Gets target u := by
  obtain ⟨xs, hdid, hsets, hclk⟩ := h
  obtain ⟨ys, hdid', hsets', hclk'⟩ := k
  refine ⟨xs ++ ys, hdid.trans hdid', hsets.trans hdid.cfg hsets', ?_⟩
  rw [hclk', hclk, List.any_append]
  cases xs.any isClockEvent <;> cases ys.any isClockEvent <;> rfl

theorem State.Gets.transFails {e : Err} (h : s.Gets target t) (k : t.Fails target e u) : s.Fails target e u := by
  intro he
  obtain ⟨xs, hdid, hsets, hclk⟩ := h
  obtain ⟨ys, last, hdid', hsets', herr, hclk'⟩ := k he
  refine ⟨xs ++ ys, last, ?_, hsets.trans hdid.cfg hsets', herr, ?_⟩
  · rw [List.append_assoc]
    exact hdid.trans hdid'
  · rw [hclk', hclk, List.any_append]
    cases xs.any isClockEvent <;> cases ys.any isClockEvent <;> rfl

/-- A single event that failed. -/
theorem State.Fails.of_event {e : Err} {last : Event} (hdid : s.Did [last] t) (herr : last.error = some e)
    (hpins : t.ste.groupPins = s.ste.groupPins) (hbb : s.cfg.chip = .bb → t.ste.bbdir = s.ste.bbdir)
    (hclk : t.ste.clk = if isClockEvent last then none else s.ste.clk) : s.Fails target e t :=
  fun _ => ⟨[], last, hdid, .none hpins hbb, herr, hclk⟩

/-- Sequencing within an operation. -/
theorem Res.bind_gets {α β : Type} {x : Res α} {f : α → State → Res β} (hx : x.Within (State.Gets target)
    (State.Fails target) s)
    (hf : ∀ a t, x = .ok a t → (f a t).Within (State.Gets target) (State.Fails target) t) :
    (x.bind f).Within (State.Gets target) (State.Fails target) s := by
  cases x with
  | err e t => exact hx
  | ok a t =>
    have ht := hf a t rfl
    rw [Res.bind_ok]
    cases hfa : f a t with
    | ok b u => exact State.Gets.trans hx (by rwa [hfa] at ht)
    | err e u => exact State.Gets.transFails hx (by rwa [hfa] at ht)

/-! ### Each event -/

theorem State.went_did {xs : List Event} {t : Ste} {b : Bridge} {rs : List (List Byte)} (h : s.gives xs) :
    s.Did xs (s.went xs t b rs) := ⟨rfl, rfl, h, rfl, rfl, rfl, rfl⟩

theorem rd_gets (n : Nat) (s : State) : (rd n s).Within (State.Gets target) (State.Fails target) s := by
  cases hx : rd n s with
  | ok x t =>
    obtain ⟨hgives, -, rfl⟩ := rd_ok hx
    exact ⟨_, State.went_did hgives, .of_same (List.forall_mem_singleton.mpr rfl) rfl rfl rfl fun _ => rfl, rfl⟩
  | err e t =>
    obtain ⟨x, st, herr, hgives, rfl⟩ := rd_err_went hx
    exact .of_event (State.went_did hgives) herr rfl (fun _ => rfl) rfl

theorem emitCmds_gets {cs : List Instr} {s : State} (hc : s.cfg.chip = .cmd) (hcs : ∀ i ∈ cs, QuietCmd s.cfg i) :
    (emitCmds cs s).Within (State.Gets target) (State.Fails target) s := by
  have hquiet := quietBytes_encodeAll hcs
  cases hx : emitCmds cs s with
  | ok a t =>
    obtain ⟨hgives, rfl⟩ := emitCmds_ok hc hx
    refine ⟨_, State.went_did hgives, ⟨List.forall_mem_singleton.mpr rfl, fun _ hp => ⟨cs, fun i hi => (hcs i hi).emittable hp,
      List.append_nil _, rfl⟩, fun hb => absurd (hc.symm.trans hb) nofun⟩, ?_⟩
    rw [List.any_cons, hquiet, List.any_nil]
    exact (Ste.foldl_rates trackSet_rates cs s.ste).clk
  | err e t =>
    obtain ⟨n, rfl, hgives, rfl⟩ := emitCmds_err_went hc hx
    have hfail := Ste.foldl_rates trackFail_rates cs s.ste
    refine .of_event (State.went_did hgives) rfl (trackFails_groupPins cs s.ste) (fun hb => absurd (hc.symm.trans hb) nofun) ?_
    rw [hquiet]
    exact hfail.clk

theorem emitSamples_gets {bs : List Byte} {s : State} (hc : s.cfg.chip = .bb) (hbs : QuietBytes bs) :
    (emitSamples bs s).Within (State.Gets target) (State.Fails target) s := by
  cases hx : emitSamples bs s with
  | ok a t =>
    obtain ⟨hgives, rfl⟩ := emitSamples_ok hx
    refine ⟨_, State.went_did hgives, ⟨List.forall_mem_singleton.mpr rfl, fun hb => absurd (hc.symm.trans hb) nofun,
      fun _ => ⟨?_, ?_, ?_⟩⟩, ?_⟩
    · have hstream : commandStream [.sent bs] = bs := List.append_nil bs
      rw [hstream, State.went_ste, trackSamples]
      cases bs.getLast? <;> rfl
    · rw [State.went_ste, trackSamples]
      cases bs.getLast? <;> rfl
    · exact trackSamples_bbdir bs s.ste
    · rw [List.any_cons, hbs, List.any_nil]
      exact (trackSamples_rates bs s.ste).clk
  | err e t =>
    obtain ⟨n, rfl, hgives, rfl⟩ := emitSamples_err_went hx
    refine .of_event (State.went_did hgives) rfl rfl (fun _ => rfl) ?_
    rw [hbs]
    rfl

theorem bbDirection_gets (dir : Byte) {s : State} (hc : s.cfg.chip = .bb) :
    (bbDirection dir s).Within (State.Gets target) (State.Fails target) s := by
  unfold bbDirection
  split
  · cases hx : ctrl (.setBitmode dir .syncBb) s with
    | ok a t =>
      obtain ⟨hgives, rfl⟩ := ctrl_ok hx
      rw [hc]
      exact ⟨_, State.went_did hgives, ⟨List.forall_mem_singleton.mpr rfl, fun hb => absurd (hc.symm.trans hb) nofun,
        fun _ => ⟨rfl, rfl, rfl⟩⟩, rfl⟩
    | err e t =>
      obtain ⟨rfl, hgives, rfl⟩ := ctrl_err_went hx
      exact .of_event (State.went_did hgives) rfl rfl (fun _ => rfl) rfl
  · exact State.Gets.refl s

theorem bbGroupSet_gets (val dir : Byte) {s : State} (hc : s.cfg.chip = .bb) :
    (bbGroupSet val dir s).Within (State.Gets target) (State.Fails target) s := by
  refine Res.bind_gets (bbDirection_gets dir hc) fun _ t ht => ?_
  have hct : t.cfg.chip = .bb := by rw [((bbDirection_io dir hc).ok ht).cfg, hc]
  refine Res.bind_gets (emitSamples_gets hct (quietBytes_of_length (bs := [val]) (by simp))) fun _ u _ => ?_
  exact Res.bind_gets (rd_gets 1 u) fun _ v _ =>
    State.Gets.of_same ((State.Did.refl v).withSte _) rfl (fun _ => rfl) rfl

/-! ### The clock steps -/

theorem isClockEvent_clockSeq (low : Bool) (d n : Nat) (ok : Bool) :
    isClockEvent (.wr (encodeAll (clockSeq low d)) n ok) = true := by
  cases low <;> rfl

/-- With parameters R8 allows, a planned divisor has an encoding. -/
theorem clockSeq_emittable {p : Params} {f : Rat} {low : Bool} {d : Nat} (hp : p.ok = true)
    (h : clockPlan p f = some (low, d)) : ∀ x ∈ clockSeq low d, x.emittable = true := by
  obtain ⟨hf, hd, hmax, -⟩ := clockPlan_some h
  have hbase : baseDiv ∣ p.fBaseHi ∧ 1 ≤ p.fBaseHi := by
    simp only [Params.ok, Bool.and_eq_true, decide_eq_true_eq] at hp
    exact ⟨Nat.dvd_of_mod_eq_zero (by omega), by omega⟩
  have hpos : 1 ≤ d := hd ▸ one_le_clockDiv (clockBase_pos hbase.1 hbase.2 low) hf
  have hset : (Instr.setDivisor d).emittable = true := Instr.emittable_iff.mpr ⟨rfl, by simp [Instr.wf, hpos, hmax], rfl⟩
  cases low <;> exact List.forall_mem_cons.mpr ⟨rfl, List.forall_mem_singleton.mpr hset⟩

theorem clockSelect_gets {f : Rat} {s : State} (hc : s.cfg.chip = .cmd) (hf : target = some f) :
    (clockSelect f s).Within (State.Gets target) (State.Fails target) s := by
  unfold clockSelect
  split
  · exact fun he => nomatch he
  next low d hplan =>
    split
    next t hx =>
      obtain ⟨hgives, rfl⟩ := emitCmds_ok hc hx
      refine ⟨_, (State.went_did hgives).withSte _, ⟨List.forall_mem_singleton.mpr rfl,
        fun _ hp => ⟨clockSeq low d, clockSeq_emittable hp hplan, List.append_nil _, rfl⟩,
        fun hb => absurd (hc.symm.trans hb) nofun⟩, ?_⟩
      rw [List.any_cons, isClockEvent_clockSeq]
      exact hf.symm
    next e t hx =>
      obtain ⟨n, rfl, hgives, rfl⟩ := emitCmds_err_went hc hx
      refine .of_event ((State.went_did hgives).withSte _) rfl (trackFails_groupPins _ s.ste)
        (fun hb => absurd (hc.symm.trans hb) nofun) ?_
      rw [isClockEvent_clockSeq]
      rfl

theorem connectRate_gets {c : SpiConn} {s : State} (hf : target = some (hz c.freq)) :
    (connectRate c s).Within (State.Gets target) (State.Fails target) s := by
  unfold connectRate
  split
  · split
    next t hx =>
      obtain ⟨hgives, rfl⟩ := ctrl_ok hx
      exact ⟨_, (State.went_did hgives).withSte _, .of_same (List.forall_mem_singleton.mpr rfl) rfl rfl rfl fun _ => rfl,
        hf.symm⟩
    next e t hx =>
      obtain ⟨rfl, hgives, rfl⟩ := ctrl_err_went hx
      exact .of_event ((State.went_did hgives).withSte _) rfl rfl (fun _ => rfl) rfl
  · exact State.Gets.refl s

/-- The requests walked through, where this is the clock target. -/
theorem walk_gets (target : Option Rat) :
    Walk (fun _ f => target = some f) (State.Gets target) (State.Fails target) where
  refl := .refl
  trans := .trans
  transErr := State.Gets.transFails
  stop := fun he _ hclass => absurd hclass he
  cfg := fun ⟨_, h⟩ => h.did.cfg
  writeBuf := fun s _ _ _ => .of_same ⟨(State.Did.refl s).trace, (State.Did.refl s).env, rfl, rfl, rfl, rfl, rfl⟩ rfl
    (fun _ => rfl) rfl
  rd := rd_gets
  cmds := fun _ _ hc hcs => emitCmds_gets hc hcs
  clock := fun _ _ hc hf => clockSelect_gets hc hf
  samples := fun _ _ hc hbs => emitSamples_gets hc hbs
  groupSet := fun val dir _ hc => bbGroupSet_gets val dir hc
  rate := fun _ _ _ hf => connectRate_gets hf

end Sys2Proof.Machine
end

section
/-! PROOF. The end of a request that met a transport error (R147, R148): the group it concerns is struck, the claims are as they
were, and the read buffers hold what was stored. -/

namespace Sys2Proof.Machine

variable {s t u w : State} {e : Err}

/-! ### I/O that stores nothing -/

theorem Res.bind_bufs {α β : Type} {s : State} {x : Res α} {f : α → State → Res β} (hx : x.state.bufs = s.bufs)
    (hf : ∀ a t, (f a t).state.bufs = State.bufs t) : (x.bind f).state.bufs = s.bufs := by
  cases x with
  | ok a t => exact (hf a t).trans hx
  | err e t => exact hx

theorem ctrl_bufs (q : CtrlReq) (s : State) : (ctrl q s).state.bufs = s.bufs := by
  unfold ctrl
  dsimp only
  split <;> rfl

theorem clockSelect_bufs (f : Rat) (s : State) : (clockSelect f s).state.bufs = s.bufs := by
  unfold clockSelect
  split
  · rfl
  next low d _ =>
    have hw := emitCmds_bufs (clockSeq low d) s
    split
    next t hx => rw [hx] at hw; exact hw
    next e t hx => rw [hx] at hw; exact hw

theorem bbGroupSet_bufs (val dir : Byte) (s : State) : (bbGroupSet val dir s).state.bufs = s.bufs := by
  refine Res.bind_bufs ?_ fun _ t => Res.bind_bufs (emitSamples_bufs _ t) fun _ u => Res.bind_bufs (rd_bufs 1 u) fun _ _ => rfl
  unfold bbDirection
  split
  · exact ctrl_bufs _ s
  · rfl

theorem groupSet_bufs (g : GroupId) (val dir : Byte) (s : State) : (groupSet g val dir s).state.bufs = s.bufs := by
  unfold groupSet
  split
  · cases g <;> exact emitCmds_bufs _ s
  · exact bbGroupSet_bufs val dir s

theorem groupRead_bufs (g : GroupId) (s : State) : (groupRead g s).state.bufs = s.bufs := by
  unfold groupRead
  refine Res.bind_bufs ?_ fun _ t => Res.bind_bufs (rd_bufs 1 t) fun _ _ => rfl
  split
  · cases g <;> exact emitCmds_bufs _ s
  · exact emitSamples_bufs _ s

theorem connectIo_bufs (c : SpiConn) (s : State) : (connectIo c s).state.bufs = s.bufs := by
  unfold connectIo
  split
  · refine Res.bind_bufs ?_ fun _ t => emitCmds_bufs _ t
    unfold connectClock
    split
    · exact Res.bind_bufs (clockSelect_bufs _ s) fun _ _ => rfl
    · rfl
  · refine Res.bind_bufs ?_ fun _ t => bbGroupSet_bufs _ _ t
    unfold connectRate
    split
    · have hq := ctrl_bufs (.setRate (2 * c.freq)) s
      split
      next t hx => rw [hx] at hq; exact hq
      next e t hx => rw [hx] at hq; exact hq
    · rfl

/-! ### A request that failed -/

/-- A transport error of a request is its body's, and strikes the request's group. -/
theorem request_failed {g : GroupId} {body : State → Res Reply} {target : Option Rat}
    (hw : (body u).Within (State.Gets target) (State.Fails target) u) (h : request g body u = .next t)
    (hres : t.results = u.results ++ [.failed e]) (he : e.class = .transport) :
    ∃ w evs last, body u = .err e w ∧ u.Failed target evs last e w ∧ t = (w.struck g).addResult (.failed e) := by
  have hlast : t.results.getLast? = some (.failed e) := by rw [hres, List.getLast?_concat]
  by_cases ho : u.ste.dev = .opened
  · rw [request_open ho] at h
    cases h
    cases hbody : body u with
    | ok v w =>
      rw [hbody, finish_ok, State.addResult_results, List.getLast?_concat] at hlast
      cases hlast
    | err f w =>
      rw [hbody, finish_err, State.raise, State.addResult_results, List.getLast?_concat] at hlast
      cases hlast
      rw [hbody] at hw
      obtain ⟨evs, last, hfailed⟩ := hw he
      exact ⟨w, evs, last, rfl, hfailed, State.raise_of_transport he w g⟩
  · rw [request, whenOpen, if_neg ho] at h
    cases h
    rw [finish_err, State.raise, State.addResult_results, List.getLast?_concat] at hlast
    cases hlast
    cases he

/-- The claims as a transport error leaves them (R147 (d)). -/
structure ClaimsAfter (i : Instr) (t u : Ste) : Prop where
  dev : u.dev = t.dev
  usingSpi : u.usingSpi = t.usingSpi
  spi : u.spi = t.spi
  kept : i ≠ .i2cClose → u.usingI2c = t.usingI2c ∧ u.i2c = t.i2c
  released : i = .i2cClose → u.usingI2c = false ∧ u.i2c = none

theorem ClaimsAfter.of_kept {i : Instr} {t u : Ste} (hi : i ≠ .i2cClose) (h : t.ClaimsKept u) : ClaimsAfter i t u :=
  ⟨h.dev, h.usingSpi, h.spi, fun _ => ⟨h.usingI2c, h.i2c⟩, fun hclose => absurd hclose hi⟩

theorem ClaimsAfter.setIndet {i : Instr} {t u : Ste} (h : ClaimsAfter i t u) (g : GroupId) (b : Bool) :
    ClaimsAfter i t (u.setIndet g b) := by
  obtain ⟨hdev, husing, hspi, hkept, hreleased⟩ := h
  cases g <;> exact ⟨hdev, husing, hspi, hkept, hreleased⟩

/-- What a transport error leaves (R146 to R148). -/
structure Aftermath (i : Instr) (g : GroupId) (s t : State) (e : Err) : Prop where
  events : ∃ evs last, t.trace = s.trace ++ evs ++ [last] ∧ last.error = some e ∧ s.Sets evs t
    ∧ t.ste.clk = (if isClockEvent last then none else if evs.any isClockEvent then clockTarget s.cfg i else s.ste.clk)
    ∧ t.bufs = storedBufs s i evs
  indet : (t.ste.grp g).indet = true
  claims : ClaimsAfter i s.ste t.ste

theorem State.Sets.setIndet {s t : State} {evs : List Event} (h : s.Sets evs t) {u : State} (g : GroupId) (b : Bool)
    (hu : u.ste = t.ste.setIndet g b) : s.Sets evs u where
  ok := h.ok
  cmd := fun hc hp => by
    rw [hu, Ste.setIndet_groupPins]
    exact h.cmd hc hp
  bb := fun hc => by
    rw [hu]
    cases g <;> exact h.bb hc

/-- A request as a whole: `u` is the state its body begins in, which is `s` but for the read buffers. -/
theorem request_aftermath {i : Instr} {g : GroupId} {body : State → Res Reply} {rs : List (List Byte)}
    (hu : u = s.loadBufs rs)
    (hw : (body u).Within (State.Gets (clockTarget s.cfg i)) (State.Fails (clockTarget s.cfg i)) u)
    (hclaims : ∀ w, body u = .err e w → ClaimsAfter i s.ste w.ste)
    (hbufs : ∀ w evs last, body u = .err e w → u.Did (evs ++ [last]) w → w.bufs = storedBufs s i evs)
    (h : request g body u = .next t) (hres : t.results = s.results ++ [.failed e]) (he : e.class = .transport) :
    Aftermath i g s t e := by
  subst hu
  obtain ⟨w, evs, last, hbody, ⟨hdid, hsets, herr, hclk⟩, rfl⟩ := request_failed hw h hres he
  have hsets' : s.Sets evs w := ⟨hsets.ok, hsets.cmd, hsets.bb⟩
  refine ⟨⟨evs, last, ?_, herr, hsets'.setIndet g true rfl, ?_, hbufs w evs last hbody hdid⟩, ?_,
    (hclaims w hbody).setIndet g true⟩
  · rw [List.append_assoc]
    exact hdid.trace
  · cases g <;> exact hclk
  · cases g <;> rfl

end Sys2Proof.Machine
end

section
/-! PROOF. The read buffers after part of a transfer (R31, R148). Between operations they hold exactly what was read so far, in
order; an operation that fails leaves them there. -/

namespace Sys2Proof.Machine

variable {s t u : State} {e : Err}

/-! ### Buffers filled in order -/

/-- Nothing received, nothing stored. -/
theorem fillBufs_nil (rs : List (List Byte)) : fillBufs rs [] = rs := by
  induction rs with
  | nil => rfl
  | cons r rs ih =>
    rw [fillBufs, List.drop_nil, ih, List.take_nil]
    rfl

/-- The bytes of the buffers before buffer `j`. -/
abbrev bytesBefore (rs : List (List Byte)) (j : Nat) : Nat := ((rs.take j).map List.length).sum

/-- What is received next is stored where the filled part ends. -/
theorem fillBufs_append {rs : List (List Byte)} {j : Nat} {r got x : List Byte} {i : Nat} (hr : rs[j]? = some r)
    (hgot : got.length = bytesBefore rs j + i) (hfits : i + x.length ≤ r.length) :
    fillBufs rs (got ++ x) = (fillBufs rs got).set j (memWrite ((fillBufs rs got).getD j []) i x) := by
  induction rs generalizing j got with
  | nil => cases hr
  | cons r₀ rs ih =>
    cases j with
    | zero =>
      obtain rfl : r₀ = r := Option.some.inj hr
      rw [bytesBefore, List.take_zero, List.map_nil, List.sum_nil, Nat.zero_add] at hgot
      have hle : got.length ≤ r₀.length := by omega
      have hle' : (got ++ x).length ≤ r₀.length := by rw [List.length_append]; omega
      have hstored := memWrite_filled (p := txPacketOf [] r₀) (got := got) (x := x) (by rw [hgot]; exact hfits)
      simp only [fillBufs, List.take_of_length_le hle, List.take_of_length_le hle', List.drop_of_length_le hle,
        List.drop_of_length_le hle', List.getD_cons_zero, List.set_cons_zero]
      rw [← hgot]
      exact congrArg (· :: _) hstored.symm
    | succ j =>
      have hsum : got.length = r₀.length + (bytesBefore rs j + i) := by
        rw [hgot, bytesBefore, List.take_succ_cons, List.map_cons, List.sum_cons, Nat.add_assoc]
      have hle : r₀.length ≤ got.length := by omega
      have hdrop : (got.drop r₀.length).length = bytesBefore rs j + i := by rw [List.length_drop]; omega
      have hhead : (got ++ x).take r₀.length ++ r₀.drop (got ++ x).length = got.take r₀.length ++ r₀.drop got.length := by
        rw [List.take_append_of_le_length hle, List.drop_of_length_le hle, List.drop_of_length_le]
        rw [List.length_append]
        omega
      rw [fillBufs, fillBufs, hhead, List.drop_append_of_le_length hle, ih hr hdrop, List.getD_cons_succ, List.set_cons_succ]

/-! ### How far the reads got -/

/-- After these events the buffers are `store` of them, and the reads are `at` this place. -/
def State.Stored (store : List Event → List (List Byte)) (place : List Event → Prop) (s t : State) : Prop :=
  ∃ evs, s.Did evs t ∧ t.bufs = store evs ∧ place evs

/-- An operation that goes through leaves the reads at this place; one that fails at an event leaves the buffers as the events
before it did. -/
def Res.Stores {α : Type} (store : List Event → List (List Byte)) (place : List Event → Prop) (s : State) : Res α → Prop
  | .ok _ t => s.Stored store place t
  | .err e t => e.class = .transport → ∃ evs last, s.Did (evs ++ [last]) t ∧ t.bufs = store evs

variable {store : List Event → List (List Byte)} {place place' : List Event → Prop}

theorem Res.Stores.bind {α β : Type} {x : Res α} {f : α → State → Res β} (hx : x.Stores store place s)
    (hf : ∀ a t, x = .ok a t → s.Stored store place t → (f a t).Stores store place' s) : (x.bind f).Stores store place' s := by
  cases x with
  | ok a t => exact hf a t rfl hx
  | err e t => exact hx

theorem Res.Stores.err {α : Type} (h : e.class ≠ .transport) (t : State) : (Res.err e t : Res α).Stores store place s :=
  fun he => absurd he h

/-- A store and a place that writes do not move. -/
structure WriteBlind (store : List Event → List (List Byte)) (place : List Event → Prop) : Prop where
  store : ∀ evs bs, store (evs ++ [.sent bs]) = store evs
  place : ∀ evs bs, place evs → place (evs ++ [.sent bs])

theorem emitCmds_stores (hblind : WriteBlind store place) (cs : List Instr) (hc : t.cfg.chip = .cmd)
    (h : s.Stored store place t) : (emitCmds cs t).Stores store place s := by
  obtain ⟨evs, hdid, hbufs, hplace⟩ := h
  cases hx : emitCmds cs t with
  | ok a u =>
    obtain ⟨hgives, rfl⟩ := emitCmds_ok hc hx
    exact ⟨_, hdid.trans (State.went_did hgives), hbufs.trans (hblind.store _ _).symm, hblind.place _ _ hplace⟩
  | err e u =>
    obtain ⟨n, -, hgives, rfl⟩ := emitCmds_err_went hc hx
    exact fun _ => ⟨evs, _, hdid.trans (State.went_did hgives), hbufs⟩

theorem emitSamples_stores (hblind : WriteBlind store place) (bs : List Byte) (h : s.Stored store place t) :
    (emitSamples bs t).Stores store place s := by
  obtain ⟨evs, hdid, hbufs, hplace⟩ := h
  cases hx : emitSamples bs t with
  | ok a u =>
    obtain ⟨hgives, rfl⟩ := emitSamples_ok hx
    exact ⟨_, hdid.trans (State.went_did hgives), hbufs.trans (hblind.store _ _).symm, hblind.place _ _ hplace⟩
  | err e u =>
    obtain ⟨n, -, hgives, rfl⟩ := emitSamples_err_went hx
    exact fun _ => ⟨evs, _, hdid.trans (State.went_did hgives), hbufs⟩

/-- A read, and what is done with its answer: `f` takes the buffers to where the store has them. -/
theorem rd_stores {n : Nat} {f : List Byte → State → Res Unit} (h : s.Stored store place t)
    (hf : ∀ evs x u, s.Did (evs ++ [.got x]) u → u.bufs = store evs → place evs → x.length = n → u.cfg = t.cfg →
      (f x u).Stores store place' s) : ((rd n t).bind f).Stores store place' s := by
  obtain ⟨evs, hdid, hbufs, hplace⟩ := h
  cases hx : rd n t with
  | ok x u =>
    obtain ⟨hgives, rfl, rfl⟩ := rd_ok hx
    exact hf evs x _ (hdid.trans (State.went_did hgives)) hbufs hplace rfl rfl
  | err e u =>
    obtain ⟨x, st, -, hgives, rfl⟩ := rd_err_went hx
    exact fun _ => ⟨evs, _, hdid.trans (State.went_did hgives), hbufs⟩

/-! ### Packets -/

theorem State.Stored.cfg (h : s.Stored store place t) : t.cfg = s.cfg := by
  obtain ⟨_, hdid, -⟩ := h
  exact hdid.cfg

/-- A packet on CMD, where `place k` is the place before the read of chunk `k`. -/
theorem txPacket_stores {store : List Event → List (List Byte)} {place : Nat → List Event → Prop}
    (hblind : ∀ k, WriteBlind store (place k)) {c : SpiConn} {p : Packet} {j : Nat} (hc : s.cfg.chip = .cmd)
    (hp : packetError p = none)
    (hread : ∀ k t, k * s.cfg.pChunk < packetLen p → s.Stored store (place k) t →
      (readChunk p j k t).Stores store (place (k + 1)) s)
    (h : s.Stored store (place 0) t) :
    (txPacket c p j t).Stores store (place (chunkCount s.cfg.pChunk p - 1 + 1)) s := by
  have hchunks : ∀ count k t, (k + count) * s.cfg.pChunk < packetLen p → s.Stored store (place k) t →
      (txChunks c p j count (k + 1) t).Stores store (place (k + count)) s := by
    intro count
    induction count with
    | zero => exact fun _ _ _ h => h
    | succ count ih =>
      intro k t hk h
      rw [← Nat.add_assoc, Nat.add_right_comm] at hk ⊢
      have hkk : k * s.cfg.pChunk < packetLen p :=
        Nat.lt_of_le_of_lt (Nat.mul_le_mul_right _ (by omega)) hk
      refine Res.Stores.bind (emitCmds_stores (hblind k) _ (h.cfg ▸ hc) h) fun _ u _ hu => ?_
      exact Res.Stores.bind (hread k u hkk hu) fun _ v _ hv => ih (k + 1) v hk hv
  have hpos := (packetError_none hp).1
  have hlast : (chunkCount s.cfg.pChunk p - 1) * s.cfg.pChunk < packetLen p := by
    rcases Nat.eq_zero_or_pos (chunkCount s.cfg.pChunk p) with hzero | hcount
    · rw [hzero, Nat.zero_sub, Nat.zero_mul]
      exact hpos
    · exact ceilDiv_pos_lt (Nat.sub_lt hcount Nat.one_pos)
  refine Res.Stores.bind (emitCmds_stores (hblind 0) _ (h.cfg ▸ hc) h) fun _ u _ hu => ?_
  rw [h.cfg]
  have htx := hchunks (chunkCount s.cfg.pChunk p - 1) 0 u (by rwa [Nat.zero_add]) hu
  rw [Nat.zero_add] at htx
  refine Res.Stores.bind htx fun _ v _ hv => ?_
  refine Res.Stores.bind (hread _ v hlast hv) fun _ w _ hw => ?_
  unfold emitTrailer
  split
  · exact hw
  · exact emitCmds_stores (hblind _) _ (hw.cfg ▸ hc) hw

/-- The packets of a list, where `place j` is the place before packet `j`. -/
theorem sendPackets_stores {store : List Event → List (List Byte)} {place : Nat → List Event → Prop} {c : SpiConn}
    {pkts : List Packet}
    (hpacket : ∀ j p t, pkts[j]? = some p → s.Stored store (place j) t → (sendPacket c p j t).Stores store (place (j + 1)) s)
    {ps : List Packet} {j : Nat} (hps : pkts.drop j = ps) (h : s.Stored store (place j) t) :
    (sendPackets c j ps t).Stores store (place (j + ps.length)) s := by
  induction ps generalizing j t with
  | nil => exact h
  | cons p ps ih =>
    have hj : pkts[j]? = some p := by
      rw [← Nat.add_zero j, ← List.getElem?_drop, hps]
      rfl
    refine Res.Stores.bind (hpacket j p t hj h) fun _ u _ hu => ?_
    rw [List.length_cons, ← Nat.add_assoc, Nat.add_right_comm]
    refine ih ?_ hu
    rw [← List.drop_drop, hps]
    rfl

/-! ### On CMD: what was read, in order -/

/-- The buffers filled with what was read. -/
abbrev streamStore (rs : List (List Byte)) (evs : List Event) : List (List Byte) := fillBufs rs (responseStream evs)

/-- So much was read. -/
abbrev streamPlace (n : Nat) (evs : List Event) : Prop := (responseStream evs).length = n

theorem responseStream_sent (evs : List Event) (bs : List Byte) :
    responseStream (evs ++ [.sent bs]) = responseStream evs := by
  rw [responseStream_append]
  exact List.append_nil _

theorem responseStream_got (evs : List Event) (x : List Byte) :
    responseStream (evs ++ [.got x]) = responseStream evs ++ x := by
  rw [responseStream_append]
  exact congrArg _ (List.append_nil x)

theorem streamStore_blind (rs : List (List Byte)) (n : Nat) : WriteBlind (streamStore rs) (streamPlace n) where
  store := fun evs bs => by rw [streamStore, responseStream_sent]
  place := fun evs bs h => by rwa [streamPlace, responseStream_sent]

theorem State.Did.writeBuf {evs : List Event} (h : s.Did evs t) (j i : Nat) (v : List Byte) : s.Did evs (t.writeBuf j i v) :=
  ⟨h.trace, h.env, h.gives, h.cfg, h.calls, h.bench, h.results⟩

theorem State.writeBuf_nil_bufs (t : State) (j i : Nat) : (t.writeBuf j i []).bufs = t.bufs := by
  have hsame : memWrite (t.buf j) i [] = t.buf j := by simp [memWrite]
  rw [State.writeBuf_bufs, hsame, State.buf]
  refine List.ext_getElem? fun k => ?_
  rw [List.getElem?_set]
  split
  next hjk =>
    subst hjk
    split
    next hlt => simp [hlt]
    next hge => rw [List.getElem?_eq_none (Nat.not_lt.mp hge)]
  next => rfl

/-- A read of `n` bytes stored behind what was stored before. -/
theorem rd_writeBuf_stores {rs : List (List Byte)} {r : List Byte} {n j i : Nat} {index : State → Nat} (hr : rs[j]? = some r)
    (hindex : ∀ u : State, u.cfg = t.cfg → index u = i) (hfits : i + n ≤ r.length)
    (h : s.Stored (streamStore rs) (streamPlace (bytesBefore rs j + i)) t) :
    ((rd n t).bind fun x t => .ok () (t.writeBuf j (index t) x)).Stores (streamStore rs)
      (streamPlace (bytesBefore rs j + i + n)) s := by
  refine rd_stores h fun evs x u hdid hbufs hplace hx hcfg => ?_
  rw [hindex u hcfg]
  refine ⟨_, hdid.writeBuf .., ?_, ?_⟩
  · rw [streamStore, responseStream_got, fillBufs_append hr hplace (hx ▸ hfits), State.writeBuf_bufs, hbufs, State.buf, hbufs]
  · rw [streamPlace, responseStream_got, List.length_append, hplace, hx]

/-- The place before chunk `k` of packet `j`. -/
abbrev chunkPlace (rs : List (List Byte)) (j : Nat) (chunk : Nat) (p : Packet) (k : Nat) : List Event → Prop :=
  streamPlace (bytesBefore rs j + if hasR p then min (k * chunk) (packetLen p) else 0)

theorem readChunk_fills {rs : List (List Byte)} {p : Packet} {j k : Nat} (hp : packetError p = none) (hr : rs[j]? = some p.r)
    (hk : k * s.cfg.pChunk < packetLen p) (h : s.Stored (streamStore rs) (chunkPlace rs j s.cfg.pChunk p k) t) :
    (readChunk p j k t).Stores (streamStore rs) (chunkPlace rs j s.cfg.pChunk p (k + 1)) s := by
  unfold chunkPlace at *
  cases hreads : hasR p with
  | false =>
    rw [hreads] at h
    rw [readChunk_skips hreads]
    exact h
  | true =>
    rw [hreads, if_pos rfl, Nat.min_eq_left (Nat.le_of_lt hk)] at h
    have hlen := chunkLen_add k hk
    have hstep := rd_writeBuf_stores (n := chunkLen s.cfg.pChunk p k) (index := fun u => k * u.cfg.pChunk) hr
      (fun u hu => by rw [hu, h.cfg]) (by rw [hlen, packetLen_of_reads hp hreads]; exact Nat.min_le_right ..) h
    rw [Nat.add_assoc, hlen] at hstep
    rwa [readChunk, if_pos hreads, h.cfg, if_pos rfl]

theorem bytesBefore_succ {rs : List (List Byte)} {j : Nat} {r : List Byte} (hr : rs[j]? = some r) :
    bytesBefore rs (j + 1) = bytesBefore rs j + r.length := by
  rw [bytesBefore, List.take_add_one, hr, List.map_append, List.sum_append]
  rfl

theorem txPacket_fills {c : SpiConn} {rs : List (List Byte)} {p : Packet} {j : Nat} (hc : s.cfg.chip = .cmd)
    (hchunk : 1 ≤ s.cfg.pChunk) (hp : packetError p = none) (hr : rs[j]? = some p.r)
    (h : s.Stored (streamStore rs) (streamPlace (bytesBefore rs j)) t) :
    (txPacket c p j t).Stores (streamStore rs) (streamPlace (bytesBefore rs (j + 1))) s := by
  obtain ⟨hpos, hall⟩ := chunkCount_spec hchunk hp
  have hstart : chunkPlace rs j s.cfg.pChunk p 0 = streamPlace (bytesBefore rs j) := by
    rw [chunkPlace, Nat.zero_mul, Nat.zero_min, ite_self, Nat.add_zero]
  have hend : chunkPlace rs j s.cfg.pChunk p (chunkCount s.cfg.pChunk p - 1 + 1) = streamPlace (bytesBefore rs (j + 1)) := by
    rw [chunkPlace, Nat.sub_add_cancel hpos, Nat.min_eq_right hall, bytesBefore_succ hr]
    cases hreads : hasR p with
    | true => rw [if_pos rfl, packetLen_of_reads hp hreads]
    | false => rw [if_neg nofun, r_of_not_reads hreads]; rfl
  rw [← hend]
  rw [← hstart] at h
  exact txPacket_stores (place := chunkPlace rs j s.cfg.pChunk p) (fun k => streamStore_blind rs _) hc hp
    (fun k u hk hu => readChunk_fills hp hr hk hu) h

/-- Parameters R8 forbids may make every chunk empty; then nothing is read. -/
theorem txPacket_empty {c : SpiConn} {rs : List (List Byte)} {p : Packet} {j : Nat} (hc : s.cfg.chip = .cmd)
    (hchunk : s.cfg.pChunk = 0) (hp : packetError p = none) (h : s.Stored (streamStore rs) (streamPlace 0) t) :
    (txPacket c p j t).Stores (streamStore rs) (streamPlace 0) s := by
  refine txPacket_stores (place := fun _ => streamPlace 0) (fun _ => streamStore_blind rs 0) hc hp (fun k u _ hu => ?_) h
  unfold readChunk
  split
  · have hnone : chunkLen u.cfg.pChunk p k = 0 := by rw [hu.cfg, chunkLen, hchunk, Nat.zero_min]
    rw [hnone]
    refine rd_stores hu fun evs x v hdid hbufs hplace hx _ => ?_
    obtain rfl := List.length_eq_zero_iff.mp hx
    refine ⟨_, hdid.writeBuf .., ?_, ?_⟩
    · rw [State.writeBuf_nil_bufs, hbufs, streamStore, streamStore, responseStream_got, List.append_nil]
    · rw [streamPlace, responseStream_got, List.append_nil, hplace]
  · exact hu

/-! ### On BB: burst by burst -/

theorem fillBursts_nil (c : SpiConn) (lag : Nat) (pkts : List Packet) : fillBursts c lag pkts [] = pkts.map (·.r) := by
  induction pkts with
  | nil => rfl
  | cons p pkts ih => rw [fillBursts, ih, List.map_cons]

/-- Packets not yet answered have the caller's read buffers. -/
theorem fillBursts_getD (c : SpiConn) (lag : Nat) {pkts : List Packet} {xs : List (List Byte)} {j : Nat} {p : Packet}
    (hp : pkts[j]? = some p) (hxs : xs.length ≤ j) : (fillBursts c lag pkts xs)[j]? = some p.r := by
  induction pkts generalizing xs j with
  | nil => cases hp
  | cons q pkts ih =>
    cases xs with
    | nil => rw [fillBursts_nil, List.getElem?_map, hp]; rfl
    | cons x xs =>
      obtain ⟨j, rfl⟩ := Nat.exists_eq_add_of_le' (Nat.le_trans (Nat.succ_pos _) hxs)
      exact ih hp (Nat.le_of_succ_le_succ hxs)

/-- The next burst replaces its packet's read buffer. -/
theorem fillBursts_append (c : SpiConn) (lag : Nat) {pkts : List Packet} {xs : List (List Byte)} {p : Packet} (x : List Byte)
    (hp : pkts[xs.length]? = some p) :
    fillBursts c lag pkts (xs ++ [x]) = (fillBursts c lag pkts xs).set xs.length (bbDecimAll c lag x p.r.length) := by
  induction pkts generalizing xs with
  | nil => cases hp
  | cons q pkts ih =>
    cases xs with
    | nil =>
      obtain rfl : q = p := Option.some.inj hp
      rfl
    | cons y xs =>
      rw [List.cons_append, fillBursts, fillBursts, ih hp]
      rfl

/-- The read buffers after these bursts. -/
abbrev burstStore (c : SpiConn) (lag : Nat) (pkts : List Packet) (evs : List Event) : List (List Byte) :=
  fillBursts c lag pkts (readAnswers evs)

/-- So many bursts were read back. -/
abbrev burstPlace (n : Nat) (evs : List Event) : Prop := (readAnswers evs).length = n

theorem readAnswers_append (xs ys : List Event) : readAnswers (xs ++ ys) = readAnswers xs ++ readAnswers ys :=
  List.filterMap_append

theorem burstStore_blind (c : SpiConn) (lag : Nat) (pkts : List Packet) (n : Nat) :
    WriteBlind (burstStore c lag pkts) (burstPlace n) := by
  have hsent : ∀ evs bs, readAnswers (evs ++ [.sent bs]) = readAnswers evs := fun evs bs => by
    rw [readAnswers_append]
    exact List.append_nil _
  exact ⟨fun evs bs => by rw [burstStore, hsent], fun evs bs h => by rwa [burstPlace, hsent]⟩

theorem bbPacket_fills {c : SpiConn} {pkts : List Packet} {p : Packet} {j : Nat} (hp : packetError p = none)
    (hj : pkts[j]? = some p) (h : s.Stored (burstStore c s.cfg.syncLag pkts) (burstPlace j) t) :
    (bbPacket c p j t).Stores (burstStore c s.cfg.syncLag pkts) (burstPlace (j + 1)) s := by
  refine Res.Stores.bind (emitSamples_stores (burstStore_blind c _ pkts j) _ h) fun _ u _ hu => ?_
  refine rd_stores hu fun evs x v hdid hbufs hplace _ hcfg => ?_
  have hread : readAnswers (evs ++ [.got x]) = readAnswers evs ++ [x] := readAnswers_append _ _
  have hbuf : v.bufs[j]? = some p.r := hbufs ▸ fillBursts_getD c _ hj (Nat.le_of_eq hplace)
  have hstore : burstStore c s.cfg.syncLag pkts (evs ++ [.got x])
      = v.bufs.set j (bbDecimAll c s.cfg.syncLag x p.r.length) := by
    rw [burstStore, hread, fillBursts_append c _ x (hplace.symm ▸ hj), hplace, hbufs]
  have hcount : burstPlace (j + 1) (evs ++ [.got x]) := by
    rw [burstPlace, hread, List.length_append, hplace]
    rfl
  cases hreads : hasR p with
  | true =>
    have hlen : (bbDecimAll c s.cfg.syncLag x p.r.length).length = p.r.length := by simp [bbDecimAll]
    have hwhole : memWrite p.r 0 (bbDecimAll c s.cfg.syncLag x p.r.length) = bbDecimAll c s.cfg.syncLag x p.r.length := by
      simp [memWrite, hlen]
    refine ⟨_, hdid.writeBuf .., ?_, hcount⟩
    rw [hstore, if_pos rfl, State.writeBuf_bufs, State.buf, List.getD_eq_getElem?_getD, hbuf, Option.getD_some, hcfg, hu.cfg,
      ← packetLen_of_reads hp hreads, hwhole]
  | false =>
    refine ⟨_, hdid, ?_, hcount⟩
    obtain ⟨hlt, hget⟩ := List.getElem?_eq_some_iff.mp hbuf
    have hnone : bbDecimAll c s.cfg.syncLag x p.r.length = v.bufs[j] := by
      rw [hget, r_of_not_reads hreads]
      rfl
    rw [hstore, hnone, List.set_getElem_self, if_neg nofun]

end Sys2Proof.Machine
end

section
/-! PROOF. What a transport error leaves, request by request (R146 to R148). -/

namespace Sys2Proof.Machine

variable {s t u w : State} {e : Err}

/-! ### The read buffer of an I²C transaction -/

/-- The first `skip` bytes read are acknowledges; what follows is stored. -/
abbrev i2cStore (skip : Nat) (r : List Byte) (evs : List Event) : List (List Byte) :=
  fillBufs [r] ((responseStream evs).drop skip)

theorem i2cStore_blind (skip : Nat) (r : List Byte) (n : Nat) : WriteBlind (i2cStore skip r) (streamPlace n) where
  store := fun evs bs => by rw [i2cStore, responseStream_sent]
  place := fun evs bs h => by rwa [streamPlace, responseStream_sent]

theorem i2cStopIdle_stores {store : List Event → List (List Byte)} {place : List Event → Prop}
    (hblind : WriteBlind store place)
    (hc : s.cfg.chip = .cmd) (h : s.Stored store place t) : (i2cStopIdle t).Stores store place s :=
  emitCmds_stores hblind _ (h.cfg ▸ hc) h

/-- A write byte reads its acknowledge and stores nothing. -/
theorem i2cWriteByte_stores {skip n : Nat} {r : List Byte} (x : Byte) (hc : s.cfg.chip = .cmd) (hn : n + 1 ≤ skip)
    (h : s.Stored (i2cStore skip r) (streamPlace n) t) :
    (i2cWriteByte x t).Stores (i2cStore skip r) (streamPlace (n + 1)) s := by
  refine Res.Stores.bind (emitCmds_stores (i2cStore_blind skip r n) _ (h.cfg ▸ hc) h) fun _ u _ hu => ?_
  refine rd_stores hu fun evs a v hdid hbufs hplace hlen _ => ?_
  have hread : (responseStream (evs ++ [.got a])).length = n + 1 := by
    rw [responseStream_got, List.length_append, hplace, hlen]
  have hstored : s.Stored (i2cStore skip r) (streamPlace (n + 1)) v := by
    refine ⟨_, hdid, ?_, hread⟩
    rw [hbufs, i2cStore, i2cStore, List.drop_of_length_le (by rw [hplace]; omega), List.drop_of_length_le (by omega)]
  split
  · exact Res.Stores.bind (i2cStopIdle_stores (i2cStore_blind skip r _) hc hstored) fun _ _ _ _ => .err (e := .nak) nofun _
  · exact hstored

theorem i2cWriteBytes_stores {skip n : Nat} {r : List Byte} {xs : List Byte} (hc : s.cfg.chip = .cmd)
    (hn : n + xs.length ≤ skip) (h : s.Stored (i2cStore skip r) (streamPlace n) t) :
    (i2cWriteBytes xs t).Stores (i2cStore skip r) (streamPlace (n + xs.length)) s := by
  induction xs generalizing n t with
  | nil => exact h
  | cons x xs ih =>
    rw [List.length_cons, ← Nat.add_assoc, Nat.add_right_comm] at hn ⊢
    exact Res.Stores.bind (i2cWriteByte_stores x hc (by omega) h) fun _ u _ hu => ih hn hu

theorem i2cReadBytes_stores {skip count j : Nat} {r : List Byte} (hc : s.cfg.chip = .cmd) (hj : j + count ≤ r.length)
    (h : s.Stored (i2cStore skip r) (streamPlace (skip + j)) t) :
    (i2cReadBytes count j t).Stores (i2cStore skip r) (streamPlace (skip + j + count)) s := by
  induction count generalizing j t with
  | zero => exact h
  | succ count ih =>
    refine Res.Stores.bind (emitCmds_stores (i2cStore_blind skip r _) _ (h.cfg ▸ hc) h) fun _ u _ hu => ?_
    refine rd_stores hu fun evs x v hdid hbufs hplace hlen _ => ?_
    rw [← Nat.add_assoc, Nat.add_right_comm (skip + j), Nat.add_assoc skip]
    refine ih (by omega) ⟨_, hdid.writeBuf .., ?_, ?_⟩
    · have hskip : skip ≤ (responseStream evs).length := by rw [hplace]; omega
      have hgot : ((responseStream evs).drop skip).length = bytesBefore [r] 0 + j := by
        rw [List.length_drop, hplace, Nat.add_sub_cancel_left]
        exact (Nat.zero_add j).symm
      rw [i2cStore, responseStream_got, List.drop_append_of_le_length hskip,
        fillBufs_append rfl hgot (by rw [hlen]; omega), State.writeBuf_bufs, State.buf, hbufs]
    · rw [streamPlace, responseStream_got, List.length_append, hplace, hlen, Nat.add_assoc]

theorem i2cTx_stores {addr : Nat} {ws r : List Byte} (hc : s.cfg.chip = .cmd)
    (h : s.Stored (i2cStore (ws.length + 1) r) (streamPlace 0) t) :
    (i2cTx addr ws r.length t).Stores (i2cStore (ws.length + 1) r) (streamPlace (ws.length + 1 + r.length)) s := by
  unfold i2cTx
  split
  · exact .err (e := .addrRange) nofun _
  · have hstart := emitCmds_stores (i2cStore_blind (ws.length + 1) r 0) (i2cStartSeq t.cfg.k t.ste.grpD) (h.cfg ▸ hc) h
    refine Res.Stores.bind hstart fun _ u _ hu => ?_
    have hwrites := i2cWriteBytes_stores (xs := BitVec.ofNat 8 addr :: ws) hc (Nat.le_of_eq (Nat.zero_add _)) hu
    rw [Nat.zero_add] at hwrites
    refine Res.Stores.bind hwrites fun _ v _ hv => ?_
    refine Res.Stores.bind (i2cReadBytes_stores (j := 0) hc (Nat.le_of_eq (Nat.zero_add _)) hv) fun _ x _ hx => ?_
    exact Res.Stores.bind (i2cStopIdle_stores (i2cStore_blind _ r _) hc hx) fun _ _ _ hy => hy

/-! ### The read buffers of a packet list -/

theorem State.Stored.start {store : List Event → List (List Byte)} {place : List Event → Prop} {rs : List (List Byte)}
    (hstore : store [] = rs) (hplace : place []) : s.Stored store place (s.loadBufs rs) :=
  ⟨[], ⟨(State.Did.refl s).trace, (State.Did.refl s).env, rfl, rfl, rfl, rfl, rfl⟩, hstore.symm, hplace⟩

/-- Where the events are known, what they stored is known. -/
theorem Res.Stores.bufs {α : Type} {x : Res α} {store : List Event → List (List Byte)} {place : List Event → Prop}
    (h : x.Stores store place s) (hx : x = .err e w) (he : e.class = .transport) {evs : List Event} {last : Event}
    (hdid : s.Did (evs ++ [last]) w) : w.bufs = store evs := by
  rw [hx] at h
  obtain ⟨evs', last', hdid', hbufs⟩ := h he
  have htrace := List.append_cancel_left (hdid.trace.symm.trans hdid'.trace)
  obtain ⟨rfl, -⟩ := List.append_inj' htrace rfl
  exact hbufs

/-- A packet list stores the answers of its packets, those of the last one as far as they came. -/
theorem spiTxPackets_bufs {pkts : List Packet} (hx : spiTxPackets pkts (s.loadBufs (pkts.map (·.r))) = .err e w)
    (he : e.class = .transport) {evs : List Event} {last : Event} (hdid : s.Did (evs ++ [last]) w) :
    w.bufs = storedPackets s pkts evs := by
  unfold spiTxPackets at hx
  split at hx
  next => cases hx; cases he
  next c hspi =>
    split at hx
    next f hf =>
      cases hx
      exact absurd he (packetsError_class hf)
    next hnone =>
      have hvalid := packetsError_none hnone
      have hspi' : s.ste.spi = some c := hspi
      have hmem : ∀ {j : Nat} {p : Packet}, pkts[j]? = some p → packetError p = none := fun hj => hvalid _ (List.mem_of_getElem? hj)
      have hbuf : ∀ {j : Nat} {p : Packet}, pkts[j]? = some p → (pkts.map (·.r))[j]? = some p.r := fun hj => by
        rw [List.getElem?_map, hj]
        rfl
      unfold storedPackets
      rw [hspi']
      cases hc : s.cfg.chip with
      | bb =>
        refine Res.Stores.bufs (sendPackets_stores (store := burstStore c s.cfg.syncLag pkts) (place := burstPlace)
          (fun j p t hj ht => ?_) rfl (.start (fillBursts_nil c _ pkts) rfl)) hx he hdid
        rw [sendPacket_bb (ht.cfg ▸ hc)]
        exact bbPacket_fills (hmem hj) hj ht
      | cmd =>
        rcases Nat.eq_zero_or_pos s.cfg.pChunk with hzero | hchunk
        · refine Res.Stores.bufs (sendPackets_stores (store := streamStore (pkts.map (·.r))) (place := fun _ => streamPlace 0)
            (fun j p t hj ht => ?_) rfl (.start (fillBufs_nil _) rfl)) hx he hdid
          rw [sendPacket_cmd (ht.cfg ▸ hc)]
          exact txPacket_empty hc hzero (hmem hj) ht
        · refine Res.Stores.bufs (sendPackets_stores (store := streamStore (pkts.map (·.r)))
            (place := fun j => streamPlace (bytesBefore (pkts.map (·.r)) j)) (fun j p t hj ht => ?_) rfl
            (.start (fillBufs_nil _) rfl)) hx he hdid
          rw [sendPacket_cmd (ht.cfg ▸ hc)]
          exact txPacket_fills hc hchunk (hmem hj) (hbuf hj) ht

/-! ### The claims and the buffers of the other requests -/

/-- The claims and the read buffers are as before. -/
structure State.Unclaimed (s t : State) : Prop where
  claims : s.ste.ClaimsKept t.ste
  bufs : t.bufs = s.bufs

theorem State.Unclaimed.refl (s : State) : s.Unclaimed s := ⟨.refl _, rfl⟩

theorem State.Unclaimed.of_err {α : Type} {x : Res α} (hx : x = .err e w) (hio : s.IoKept x.state)
    (hbufs : x.state.bufs = s.bufs) :
    s.Unclaimed w := by
  subst hx
  exact ⟨hio.ste.toClaimsKept, hbufs⟩

/-- A connect that fails has claimed nothing. -/
theorem spiConnect_unclaimed {f mode bits : Nat} (h : spiConnect f mode bits s = .err e w) : s.Unclaimed w := by
  unfold spiConnect at h
  split at h
  next => cases h; exact .refl s
  next c _ =>
    obtain h | ⟨_, u, -, h⟩ := Res.bind_eq_err.mp h
    · exact .of_err h (connectIo_io c s) (connectIo_bufs c s)
    · cases h

theorem i2cOpen_unclaimed {pull : Pull} (h : i2cOpen pull s = .err e w) : s.Unclaimed w := by
  unfold i2cOpen at h
  split at h
  next => cases h; exact .refl s
  next =>
    split at h
    next => cases h; exact .refl s
    next =>
      obtain h | ⟨_, u, hu, h⟩ := Res.bind_eq_err.mp h
      · exact .of_err h (clockSelect_io _ s) (clockSelect_bufs _ s)
      · obtain h | ⟨_, v, -, h⟩ := Res.bind_eq_err.mp h
        · have hio := (clockSelect_io _ s).ok hu
          have hclock := clockSelect_bufs (i2cTarget s.cfg.i2cRate) s
          rw [Res.state_eq hu] at hclock
          have hcmds := emitCmds_bufs (i2cOpenSeq u.ste.grpD) u
          exact .of_err h (State.IoKept.trans hio (emitCmds_io _ u)) (hcmds.trans hclock)
        · cases h

theorem i2cSetSpeed_unclaimed {rate : Nat} (h : i2cSetSpeed rate s = .err e w) : s.Unclaimed w := by
  obtain h | ⟨_, u, -, h⟩ := Res.bind_eq_err.mp h
  · exact .of_err h (clockSelect_io _ s) (clockSelect_bufs _ s)
  · cases h

theorem Res.reply_eq_err {α : Type} {x : Res α} {f : α → State → Reply} : x.reply f = .err e w ↔ x = .err e w := by
  cases x <;> simp

/-- A close has released the claim before its write. -/
theorem i2cClose_released {s : State} (h : i2cClose s = .err e w) :
    ClaimsAfter .i2cClose s.ste w.ste ∧ w.bufs = s.bufs := by
  have hsent := Res.reply_eq_err.mp h
  have hio := (emitCmds_io i2cCloseSeq (s.withSte Ste.releaseI2c)).err hsent
  have hbufs := emitCmds_bufs i2cCloseSeq (s.withSte Ste.releaseI2c)
  rw [hsent, Res.state_err] at hbufs
  obtain ⟨hdev, husing, hi2c, hspi, hrec⟩ := hio.ste.toClaimsKept
  exact ⟨⟨hdev, husing, hspi, fun hne => absurd rfl hne, fun _ => ⟨hi2c, hrec⟩⟩, hbufs⟩

theorem onCmd_eq_err {body : State → Res Reply} (h : onCmd body s = .err e w) (he : e.class = .transport) :
    s.cfg.chip = .cmd ∧ body s = .err e w := by
  unfold onCmd at h
  split at h
  next hc => exact ⟨hc, h⟩
  next => cases h; cases he

theorem withI2c_eq_err {body : I2cBus → State → Res Reply} (h : withI2c body s = .err e w) (he : e.class = .transport) :
    ∃ bus, body bus s = .err e w := by
  unfold withI2c at h
  split at h
  next => cases h; cases he
  next bus _ => exact ⟨bus, h⟩

theorem onPin_eq_err {g : GroupId} {i : Fin 8} {body : State → Res Reply} (h : onPin g i body s = .err e w)
    (he : e.class = .transport) : body s = .err e w := by
  unfold onPin at h
  split at h
  next hpin => cases h; exact absurd he (pinCheck_class hpin)
  next => exact h

theorem spiCheck_freq {p : Params} {t : Ste} {f mode bits : Nat} {c : SpiConn} (h : spiCheck p t f mode bits = .ok c) :
    c.freq = min f (spiCeiling p) := by
  unfold spiCheck at h
  split at h
  · cases h
  · dsimp only at h
    split at h
    · cases h
    · split at h
      · cases h
      · split at h
        · cases h
        · cases h
          rfl

theorem State.Gets.withSte {target : Option Rat} (t : State) {f : Ste → Ste} (hpins : (f t.ste).groupPins = t.ste.groupPins)
    (hbb : (f t.ste).bbdir = t.ste.bbdir) (hclk : (f t.ste).clk = t.ste.clk) : t.Gets target (t.withSte f) :=
  .of_same ((State.Did.refl t).withSte f) hpins (fun _ => hbb) hclk

/-! ### Every request -/

/-- The group a request concerns (R147 (a)). -/
def struckGroup : Instr → GroupId
  | .gpioOut g _ _ | .gpioIn g _ | .gpioRead g _ => g
  | _ => .d

/-- A request that stores nothing and ends before its last claim. -/
theorem request_unclaimed {i : Instr} {g : GroupId} {body : State → Res Reply} (hi : i ≠ .i2cClose)
    (hbufs : ∀ evs, storedBufs s i evs = s.bufs)
    (hw : (body s).Within (State.Gets (clockTarget s.cfg i)) (State.Fails (clockTarget s.cfg i)) s)
    (hkept : ∀ w, body s = .err e w → s.Unclaimed w) (h : request g body s = .next t)
    (hres : t.results = s.results ++ [.failed e]) (he : e.class = .transport) : Aftermath i g s t e :=
  request_aftermath (rs := s.bufs) rfl hw (fun w hx => .of_kept hi (hkept w hx).claims)
    (fun w evs _ hx _ => (hkept w hx).bufs.trans (hbufs evs).symm) h hres he

/-- A request with buffers of its own, which keeps the claims. -/
theorem request_stored {i : Instr} {g : GroupId} {body : State → Res Reply} {rs : List (List Byte)} (hi : i ≠ .i2cClose)
    (hw : (body (s.loadBufs rs)).Within (State.Gets (clockTarget s.cfg i)) (State.Fails (clockTarget s.cfg i)) (s.loadBufs rs))
    (hio : ∀ w, body (s.loadBufs rs) = .err e w → s.ste.ClaimsKept w.ste)
    (hbufs : ∀ w evs last, body (s.loadBufs rs) = .err e w → s.Did (evs ++ [last]) w → w.bufs = storedBufs s i evs)
    (h : request g body (s.loadBufs rs) = .next t) (hres : t.results = s.results ++ [.failed e])
    (he : e.class = .transport) : Aftermath i g s t e :=
  request_aftermath rfl hw (fun w hx => .of_kept hi (hio w hx))
    (fun w evs last hx hdid => hbufs w evs last hx
      ⟨hdid.trace, hdid.env, hdid.gives, hdid.cfg, hdid.calls, hdid.bench, hdid.results⟩) h hres he

theorem exec_aftermath {i : Instr} (hi : i.isRequest = true) (hopen : i ≠ .devOpen) (h : exec i s = .next t)
    (hres : t.results = s.results ++ [.failed e]) (he : e.class = .transport) : Aftermath i (struckGroup i) s t e := by
  have W := walk_gets (clockTarget s.cfg i)
  cases i with
  | devOpen => exact absurd rfl hopen
  | devClose =>
    have hlast : t.results.getLast? = some (.failed e) := by rw [hres, List.getLast?_concat]
    cases h
    unfold devClose at hlast
    split at hlast
    · rw [finish_err, State.raise, State.addResult_results, List.getLast?_concat] at hlast
      cases hlast
      cases he
    · rw [finish_ok, State.addResult_results, List.getLast?_concat] at hlast
      cases hlast
  | spiConnect f mode bits =>
    refine request_unclaimed nofun (fun _ => rfl) (W.spiConnect f mode bits (fun c hc => ?_) fun c u _ _ => ?_)
      (fun w hx => spiConnect_unclaimed hx) h hres he
    · rw [spiCheck_freq hc]
      rfl
    · exact .withSte u rfl rfl rfl
  | spiTx ws r =>
    refine request_stored nofun (W.reply (W.spiTxPackets (pkts := [txPacketOf ws r]) rfl) _) (fun w hx => ?_)
      (fun w evs last hx hdid => ?_) h hres he
    · exact ((spiTxPackets_io _ _).err (Res.reply_eq_err.mp hx)).ste.toClaimsKept
    · exact spiTxPackets_bufs (pkts := [txPacketOf ws r]) (Res.reply_eq_err.mp hx) he hdid
  | spiTxPackets pkts =>
    refine request_stored nofun (W.reply (W.spiTxPackets rfl) _) (fun w hx => ?_) (fun w evs last hx hdid => ?_) h hres he
    · exact ((spiTxPackets_io _ _).err (Res.reply_eq_err.mp hx)).ste.toClaimsKept
    · exact spiTxPackets_bufs (Res.reply_eq_err.mp hx) he hdid
  | spiClose =>
    have hclose : ∀ f w, spiClose s = .err f w → f = .notConnected ∧ w = s := by
      intro f w hx
      unfold spiClose at hx
      split at hx <;> cases hx
      exact ⟨rfl, rfl⟩
    refine request_unclaimed nofun (fun _ => rfl) ?_ (fun w hx => ?_) h hres he
    · unfold spiClose
      split
      · exact W.err s nofun
      · exact State.Gets.withSte s rfl rfl rfl
    · obtain ⟨-, rfl⟩ := hclose e w hx
      exact .refl w
  | i2cOpen pull =>
    refine request_unclaimed nofun (fun _ => rfl) (W.onCmd fun hc => W.i2cOpen pull hc rfl fun _ u _ _ _ _ => ?_)
      (fun w hx => i2cOpen_unclaimed (onCmd_eq_err hx he).2) h hres he
    exact .withSte u rfl rfl rfl
  | i2cSetSpeed rate =>
    refine request_unclaimed nofun (fun _ => rfl)
      (W.onCmd fun hc => W.withI2c fun _ _ => W.i2cSetSpeed rate hc rfl fun u _ _ => ?_) (fun w hx => ?_) h hres he
    · exact .withSte u rfl rfl rfl
    · obtain ⟨bus, hx⟩ := withI2c_eq_err (onCmd_eq_err hx he).2 he
      exact i2cSetSpeed_unclaimed hx
  | i2cTx addr ws r =>
    refine request_stored nofun (W.onCmd fun hc => W.withI2c fun _ _ => W.i2cTx addr ws _ hc) (fun w hx => ?_)
      (fun w evs last hx hdid => ?_) h hres he
    · obtain ⟨bus, hx⟩ := withI2c_eq_err (onCmd_eq_err hx he).2 he
      exact ((i2cTx_io addr ws r.length _).err hx).ste.toClaimsKept
    · obtain ⟨hc, hx⟩ := onCmd_eq_err hx he
      obtain ⟨bus, hx⟩ := withI2c_eq_err hx he
      exact Res.Stores.bufs (i2cTx_stores (s := s) hc (.start (fillBufs_nil [r]) rfl)) hx he hdid
  | i2cClose =>
    refine request_aftermath (rs := s.bufs) rfl (W.onCmd fun hc => W.withI2c fun _ _ => W.i2cClose hc ?_) (fun w hx => ?_)
      (fun w evs last hx _ => ?_) h hres he
    · exact .withSte s rfl rfl rfl
    · obtain ⟨bus, hx⟩ := withI2c_eq_err (onCmd_eq_err hx he).2 he
      exact (i2cClose_released hx).1
    · obtain ⟨bus, hx⟩ := withI2c_eq_err (onCmd_eq_err hx he).2 he
      exact (i2cClose_released hx).2
  | gpioOut g n level =>
    refine request_unclaimed (body := onPin g n (Machine.gpioOut g n level)) nofun (fun _ => rfl)
      (W.onPin fun _ => W.reply (W.gpioSet g _ _ s) _) (fun w hx => ?_) h hres he
    exact .of_err (Res.reply_eq_err.mp (onPin_eq_err hx he)) (groupSet_io ..) (groupSet_bufs ..)
  | gpioIn g n =>
    refine request_unclaimed (body := onPin g n (Machine.gpioIn g n)) nofun (fun _ => rfl)
      (W.onPin fun _ => W.reply (W.gpioSet g _ _ s) _) (fun w hx => ?_) h hres he
    exact .of_err (Res.reply_eq_err.mp (onPin_eq_err hx he)) (groupSet_io ..) (groupSet_bufs ..)
  | gpioRead g n =>
    refine request_unclaimed (body := onPin g n (Machine.gpioRead g n)) nofun (fun _ => rfl)
      (W.onPin fun _ => W.reply (W.gpioGet g s) _) (fun w hx => ?_) h hres he
    exact .of_err (Res.reply_eq_err.mp (onPin_eq_err hx he)) (groupRead_io ..) (groupRead_bufs ..)
  | _ => cases hi

/-- Settles O50. -/
theorem transportErrorEffects : Obligations.TransportErrorEffects := by
  intro i s t e hi hopen h hres he
  obtain ⟨⟨evs, last, htrace, herr, hsets, hclk, hbufs⟩, hindet, hclaims⟩ := exec_aftermath hi hopen h hres he
  refine ⟨⟨evs, last, htrace, herr, hsets.ok, hclk, fun hc hp => ?_, hsets.bb, hbufs⟩, ?_, hclaims.dev, hclaims.usingSpi,
    hclaims.spi, hclaims.kept, hclaims.released⟩
  · obtain ⟨cs, hcs, hstream, hpins⟩ := hsets.cmd hc hp
    obtain ⟨hd, hc⟩ := Prod.ext_iff.mp hpins
    exact ⟨cs, hcs, hstream, hd, hc⟩
  · cases i with
    | gpioOut g _ _ | gpioIn g _ | gpioRead g _ => cases g <;> exact hindet
    | _ => exact hindet

end Sys2Proof.Machine
end
